-- ==== Sys2Proof/Word.lean ====
section
/-! DEFINITION. The two data widths of the hardware (00_scope.md R8): a byte is 8 bits, a word 16 bits. -/

namespace Sys2Proof

/-- The 8-bit datum of R8 (`the data width` of 00_scope.md section 5). -/
abbrev Byte := BitVec 8

/-- The 16-bit word of R8: addresses, `pc`, `sp`, register pairs. -/
abbrev Word := BitVec 16

end Sys2Proof
end

