-- ==== Sys2Proof/Config.lean ====
section
/-! DEFINITION. Values the spec leaves without a number. Each is an opaque constant: nothing in Lean can
evaluate it. The spec's own parameters that a model takes as arguments (`OBJ16_MASK_BIT0`, the component
list) are no constants here: they are data of `Machine.Platform`, so that every statement holds for every
value of them. -/

namespace Sys2Proof

/-- FREE VALUE (log 9). 20_memory.md R93: "a type byte at a fixed offset"; the offset "is not in the source"
(91_not_in_source.md N37). Only the cartridge loader reads it. -/
opaque Config.cartridgeTypeOffset : Nat

/-- FREE VALUE (log 8). The most significant plane of a row whose slot of `nextFrame` is empty when a frame is
latched at tick `c`, row `r`: 65_ppu.md R500 says no such slot exists, so no run from reset reads it. -/
opaque Config.emptySlotMsb (c r : Nat) : BitVec 160

/-- FREE VALUE (log 8). The least significant plane of the same row. -/
opaque Config.emptySlotLsb (c r : Nat) : BitVec 160

end Sys2Proof
end

