-- ==== Sys2Proof/Machine/BitEngine.lean ====
section
/-! DEFINITION. The Bit Engine of 40_alu.md section 1 (R160 to R169): pure functions on fixed-width bits.
The width is a parameter: the spec's 32-bit word is `w = 32`, its bytes are `w = 8`. The domains of R170
(index below the width, size at most the width) are met by every call of the model. -/

namespace Sys2Proof.Machine

/-- R160: only bit `i` set. -/
def mask (w i : Nat) : BitVec w := 1#w <<< i

/-- R161: bit `i` is 1. -/
def testBit {w : Nat} (bits : BitVec w) (i : Nat) : Bool := bits.getLsbD i

/-- R162: bit `i` replaced by `v`, every other bit unchanged. -/
def setBit {w : Nat} (bits : BitVec w) (i : Nat) (v : Bool) : BitVec w :=
  if v then bits ||| mask w i else bits &&& ~~~ mask w i

/-- R163: the low `n` bits kept (`clip(n, bits) = bits mod 2^n`). -/
def clip {w : Nat} (n : Nat) (bits : BitVec w) : BitVec w := BitVec.ofNat w (bits.toNat % 2 ^ n)

/-- R164: `bits[start+size-1 : start]` as an unsigned value; size 0 gives 0. -/
def extract {w : Nat} (bits : BitVec w) (start size : Nat) : Nat := bits.toNat / 2 ^ start % 2 ^ size

/-- R165: the `size`-bit value rotated by `distance` places, positive to the left, distance taken modulo the
size (floor modulo). -/
def rotate {size : Nat} (bits : BitVec size) (distance : Int) : BitVec size :=
  let d := (distance % (size : Int)).toNat
  (bits <<< d) ||| (bits >>> (size - d))

/-- R166: the 32-bit two's-complement value with the same signed meaning. -/
def signExtend8 (b : Byte) : BitVec 32 := b.signExtend 32

/-- R9: the 16-bit two's-complement value with the same signed meaning. -/
def sext16 (b : Byte) : Word := b.signExtend 16

/-- R9: `signed8`. -/
def signed8 (b : Byte) : Int := b.toInt

/-- R167: result bit `i` is bit `7 - i`. -/
def reverse8 (b : Byte) : Byte :=
  (b.extractLsb' 0 1) ++ (b.extractLsb' 1 1) ++ (b.extractLsb' 2 1) ++ (b.extractLsb' 3 1) ++
  (b.extractLsb' 4 1) ++ (b.extractLsb' 5 1) ++ (b.extractLsb' 6 1) ++ (b.extractLsb' 7 1)

/-- R168. -/
def complement8 (b : Byte) : Byte := b ^^^ 0xFF#8

/-- R169: `(hi << 8) | lo`. -/
def make16 (hi lo : Byte) : Word := hi ++ lo

/-- `v[7:0]` of a word (R8). -/
def lowByte (v : Word) : Byte := v.extractLsb' 0 8

/-- `v[15:8]` of a word (R8). -/
def highByte (v : Word) : Byte := v.extractLsb' 8 8

end Sys2Proof.Machine
end

