-- ==== Sys2Proof/Machine/Line.lean ====
section
/-! DEFINITION. Bit vectors and scanlines (65_ppu.md section 3, R475 to R491). A bit vector of R480 is a
`BitVec n` whose bit `i` is screen column `i`: "Viewed as a number, index 0 is the least significant bit". -/

namespace Sys2Proof.Machine

/-- R482: `r[i] = v[start + i]` where that index exists, else 0. -/
def extractZeroExtended {n : Nat} (v : BitVec n) (start : Int) (size : Nat) : BitVec size :=
  if 0 ≤ start then (v >>> start.toNat).setWidth size
  else (v.setWidth size) <<< (-start).toNat

/-- R483: `r[i] = v[(start + i) mod n]` with floor modulo: enough copies of `v` side by side, read from
`start mod n` on. -/
def extractWrapped {n : Nat} (v : BitVec n) (start : Int) (size : Nat) : BitVec size :=
  ((v.replicate (size / n + 2)) >>> (start % (n : Int)).toNat).setWidth size

/-- R484: `r[i] = v[i - k]`; positive `k` moves bits to higher columns. -/
def shiftVector {n : Nat} (v : BitVec n) (k : Int) : BitVec n := extractZeroExtended v (-k) n

/-- The vector whose columns 0 to `k - 1` are 1 (the left mask of R490). -/
def leftMask (n k : Nat) : BitVec n := BitVec.ofNat n (2 ^ k - 1)

/-- R475: `Pal(p, i) = p[2i + 1 : 2i]`. -/
def palette (p : Byte) (i : BitVec 2) : BitVec 2 := (p >>> (2 * i.toNat)).setWidth 2

/-- R486: one scanline of `n` pixels as three planes of equal length. -/
structure LcdImageLine (n : Nat) where
  msb : BitVec n
  lsb : BitVec n
  opacity : BitVec n
deriving DecidableEq, Repr

/-- R486: the colour `2 * msb[i] + lsb[i]` of pixel `i`. -/
def LcdImageLine.colour {n : Nat} (L : LcdImageLine n) (i : Nat) : BitVec 2 :=
  BitVec.ofBool (L.msb.getLsbD i) ++ BitVec.ofBool (L.lsb.getLsbD i)

/-- R486: pixel `i` is opaque. -/
def LcdImageLine.opaqueAt {n : Nat} (L : LcdImageLine n) (i : Nat) : Bool := L.opacity.getLsbD i

/-- R486: the line with all three planes zero. -/
def LcdImageLine.empty (n : Nat) : LcdImageLine n := ⟨0#n, 0#n, 0#n⟩

/-- R486: a line built from pattern planes is opaque where its colour index is not 0. -/
def LcdImageLine.ofPlanes {n : Nat} (msb lsb : BitVec n) : LcdImageLine n := ⟨msb, lsb, msb ||| lsb⟩

/-- R487. -/
def LcdImageLine.shift {n : Nat} (L : LcdImageLine n) (k : Int) : LcdImageLine n :=
  ⟨shiftVector L.msb k, shiftVector L.lsb k, shiftVector L.opacity k⟩

/-- R487. -/
def LcdImageLine.extractWrapped {n : Nat} (L : LcdImageLine n) (start : Int) (size : Nat) :
    LcdImageLine size :=
  ⟨Machine.extractWrapped L.msb start size, Machine.extractWrapped L.lsb start size,
   Machine.extractWrapped L.opacity start size⟩

/-- R482 on all three planes (R495). -/
def LcdImageLine.extractZeroExtended {n : Nat} (L : LcdImageLine n) (start : Int) (size : Nat) :
    LcdImageLine size :=
  ⟨Machine.extractZeroExtended L.msb start size, Machine.extractZeroExtended L.lsb start size,
   Machine.extractZeroExtended L.opacity start size⟩

/-- `v` where the flag is set, else no bit (a term of R488). -/
def gate {n : Nat} (b : Bool) (v : BitVec n) : BitVec n := if b then v else 0#n

/-- One plane of R488: the columns of the four colours, each kept where bit `j` of its palette entry is 1. -/
def recolourPlane {n : Nat} (L : LcdImageLine n) (p : Byte) (j : Nat) : BitVec n :=
  gate ((palette p 0#2).getLsbD j) (~~~L.msb &&& ~~~L.lsb) |||
  gate ((palette p 1#2).getLsbD j) (~~~L.msb &&& L.lsb) |||
  gate ((palette p 2#2).getLsbD j) (L.msb &&& ~~~L.lsb) |||
  gate ((palette p 3#2).getLsbD j) (L.msb &&& L.lsb)

/-- R488: every pixel's colour `c` becomes `Pal(p, c)`; opacity unchanged. -/
def LcdImageLine.mapColors {n : Nat} (L : LcdImageLine n) (p : Byte) : LcdImageLine n :=
  ⟨recolourPlane L p 1, recolourPlane L p 0, L.opacity⟩

/-- R489: layer A below layer B: B's colour where the mask is 1, A's elsewhere; opacity = mask or A's. -/
def LcdImageLine.belowMask {n : Nat} (A B : LcdImageLine n) (mask : BitVec n) : LcdImageLine n :=
  ⟨(B.msb &&& mask) ||| (A.msb &&& ~~~mask), (B.lsb &&& mask) ||| (A.lsb &&& ~~~mask),
   mask ||| A.opacity⟩

/-- R489 with its default mask, `B.opacity`. -/
def LcdImageLine.below {n : Nat} (A B : LcdImageLine n) : LcdImageLine n := A.belowMask B B.opacity

/-- R490: pixels 0 to `k - 1` from A, the others from B. -/
def LcdImageLine.join {n : Nat} (A B : LcdImageLine n) (k : Nat) : LcdImageLine n :=
  let m := leftMask n k
  ⟨(A.msb &&& m) ||| (B.msb &&& ~~~m), (A.lsb &&& m) ||| (B.lsb &&& ~~~m),
   (A.opacity &&& m) ||| (B.opacity &&& ~~~m)⟩

/-- The number whose byte `j` is the `j`-th byte of the list (the planes of R491). -/
def planeOfBytes : List Byte → Nat
  | [] => 0
  | b :: bs => b.toNat + 256 * planeOfBytes bs

/-- R491: the 256-pixel line of 32 tile rows; byte `j` of each plane is the reversed pattern byte. -/
def lineFromTiles (f : Nat → Byte × Byte) : LcdImageLine 256 :=
  let cols := List.range 32
  LcdImageLine.ofPlanes
    (BitVec.ofNat 256 (planeOfBytes (cols.map fun j => reverse8 (f j).2)))
    (BitVec.ofNat 256 (planeOfBytes (cols.map fun j => reverse8 (f j).1)))

end Sys2Proof.Machine
end

