-- ==== Sys2Proof/Machine/Memory.lean ====
section
/-! DEFINITION. Byte storage as plain data: a list of cells in one canonical form (keys strictly rising, no
cell that holds what an unlisted key reads as). Work RAM, ROM contents, high RAM, `Vram` and `Oam` are each
one such list; an unlisted key reads as 0x00 in all of them (10_state.md R55, 20_memory.md R83). -/

namespace Sys2Proof.Machine

/-- Storage keyed by a natural number (a bus address, or an `Oam` offset). -/
abbrev Memory := List Host.Cell

/-- What a key that is not listed reads as: 0x00, the reset contents of R55 and R83 (log 2). -/
def Memory.unlisted : Byte := 0#8

/-- The byte stored under a key. -/
def Memory.read : Memory → Nat → Byte
  | [], _ => Memory.unlisted
  | (k', v) :: rest, k => if k = k' then v else Memory.read rest k

/-- The storage with `v` under `k`, in canonical form: writing the unlisted value removes the cell. -/
def Memory.write : Memory → Nat → Byte → Memory
  | [], k, v => if v = Memory.unlisted then [] else [(k, v)]
  | (k', v') :: rest, k, v =>
    if k < k' then
      if v = Memory.unlisted then (k', v') :: rest else (k, v) :: (k', v') :: rest
    else if k = k' then
      if v = Memory.unlisted then rest else (k, v) :: rest
    else (k', v') :: Memory.write rest k v

/-- Whether every key of the storage lies above `lo` and the keys rise strictly and no cell holds the unlisted
value. -/
def Memory.wfAbove : Memory → Nat → Bool
  | [], _ => true
  | (k, v) :: rest, lo => decide (lo ≤ k) && decide (v ≠ Memory.unlisted) && Memory.wfAbove rest (k + 1)

/-- The canonical form. -/
def Memory.wf (m : Memory) : Bool := Memory.wfAbove m 0

/-- Whether every listed key lies in `[lo, hi)`. -/
def Memory.within (m : Memory) (lo hi : Nat) : Bool := m.all fun c => decide (lo ≤ c.1) && decide (c.1 < hi)

/-- Consecutive bytes stored from a key on (loading a ROM image, R84, R93). -/
def Memory.load : Memory → Nat → List Byte → Memory
  | m, _, [] => m
  | m, k, v :: vs => Memory.load (Memory.write m k v) (k + 1) vs

end Sys2Proof.Machine
end

