-- ==== Sys2Proof/Machine/Platform.lean ====
section
/-! DEFINITION. The bus's components as data, and the address map (20_memory.md R70 to R93). The component
list and its order, and `OBJ16_MASK_BIT0`, are the arguments of the model that 00_scope.md R17 and
10_state.md R54 name: they stand in `State.platform`, and no step changes them. -/

namespace Sys2Proof.Machine

/-- A contiguous range `[start, start+size)` of bus addresses (R83). `base` is the key, in the platform's
storage, of its first byte: two ranges with one base share storage, which is R85's echo. -/
structure Region where
  start : Nat
  size : Nat
  base : Nat
deriving DecidableEq, Repr

/-- Whether the region owns a bus address. -/
def Region.owns (r : Region) (a : Word) : Bool :=
  decide (r.start ≤ a.toNat) && decide (a.toNat < r.start + r.size)

/-- The storage key of an owned address. -/
def Region.key (r : Region) (a : Word) : Nat := r.base + (a.toNat - r.start)

/-- R71: "any bus-attached device". The three components of the CORE (R80 to R82) and the platform's
(R83 to R86). The banked cartridge controllers, the joypad and the serial device have no constructor:
00_scope.md R5, R6. -/
inductive Component where
  /-- R80. -/
  | cpu
  /-- R81. -/
  | timer
  /-- R82. -/
  | ppu
  /-- R83, and R85 where two regions have one base. -/
  | ram (r : Region)
  /-- R84. -/
  | rom (r : Region)
  /-- R86: the boot-ROM shadow; `base` is the storage key of its byte 0. -/
  | bootRom (base : Nat)
deriving DecidableEq, Repr

/-- R54: the parameters of the step relation. -/
structure Platform where
  /-- R52: the attached components in attachment order. -/
  components : List Component
  /-- 65_ppu.md R497, D24: `OBJ16_MASK_BIT0`. -/
  obj16MaskBit0 : Bool
deriving DecidableEq, Repr

/-- Whether a component is the boot-ROM shadow. -/
def Component.isBootRom : Component → Bool
  | .bootRom _ => true
  | .cpu => false
  | .timer => false
  | .ppu => false
  | .ram _ => false
  | .rom _ => false

/-- Whether a component is a ROM (the cartridge's, R84). -/
def Component.isRom : Component → Bool
  | .rom _ => true
  | .cpu => false
  | .timer => false
  | .ppu => false
  | .ram _ => false
  | .bootRom _ => false

/-- R86: `bootActive` resets to 1 if a boot ROM is supplied and 0 otherwise. -/
def Platform.hasBootRom (p : Platform) : Bool := p.components.any Component.isBootRom

/-- R75, D29: the one constraint on the order: no ROM stands before the boot-ROM shadow. -/
def Platform.bootFirst (p : Platform) : Bool :=
  (p.components.dropWhile fun c => !c.isRom).all fun c => !c.isBootRom

/-- R90: the cartridge ROM at 0x0000 to 0x7FFF. -/
def cartridgeRom : Component := .rom ⟨0x0000, 0x8000, 0x0000⟩

/-- R90: 8 KiB of work RAM at 0xC000 to 0xDFFF. -/
def workRam : Component := .ram ⟨0xC000, 0x2000, 0xC000⟩

/-- R85, R90: the echo at 0xE000 to 0xFDFF, over the storage of 0xC000 to 0xDDFF. -/
def echoRam : Component := .ram ⟨0xE000, 0x1E00, 0xC000⟩

/-- The platform of R90's map with `OBJ16_MASK_BIT0` at its default false (D24). Its components own disjoint
addresses, so their order is unobservable (R78). -/
def Platform.default : Platform :=
  { components := [.cpu, .timer, .ppu, cartridgeRom, workRam, echoRam], obj16MaskBit0 := false }

/-! The CORE's own addresses (R90, rows "in CORE"). -/

/-- R28, R80. -/
def addrIE : Word := 0xFFFF#16
/-- R29, R80. -/
def addrIF : Word := 0xFF0F#16
/-- R35, R81. -/
def addrDIV : Word := 0xFF04#16
/-- R36, R81. -/
def addrTIMA : Word := 0xFF05#16
/-- R37, R81. -/
def addrTMA : Word := 0xFF06#16
/-- R38, R81. -/
def addrTAC : Word := 0xFF07#16
/-- R86: any write here ends boot mode. -/
def addrBoot : Word := 0xFF50#16

/-- R34, R80: the addresses of high RAM. -/
def inHighRam (a : Word) : Bool := decide (0xFF80 ≤ a.toNat) && decide (a.toNat ≤ 0xFFFE)

/-- R48, R82: the addresses of `Vram`. -/
def inVram (a : Word) : Bool := decide (0x8000 ≤ a.toNat) && decide (a.toNat ≤ 0x9FFF)

/-- R49, R82: the addresses of `Oam`. -/
def inOam (a : Word) : Bool := decide (0xFE00 ≤ a.toNat) && decide (a.toNat ≤ 0xFE9F)

/-- The offset into `Oam` of an address of `inOam` (R49). -/
def oamOffset (a : Word) : Nat := a.toNat - 0xFE00

/-- R86: the addresses of the boot window. -/
def inBootWindow (a : Word) : Bool := decide (a.toNat ≤ 0x00FF)

/-- R39: the PPU's twelve registers. -/
inductive PpuReg where
  | LCDC | STAT | SCY | SCX | LY | LYC | DMA | BGP | OBP0 | OBP1 | WY | WX
deriving DecidableEq, Repr

/-- R39: the register at an address, if one is there. -/
def PpuReg.ofAddr (a : Word) : Option PpuReg :=
  if a = 0xFF40#16 then some .LCDC
  else if a = 0xFF41#16 then some .STAT
  else if a = 0xFF42#16 then some .SCY
  else if a = 0xFF43#16 then some .SCX
  else if a = 0xFF44#16 then some .LY
  else if a = 0xFF45#16 then some .LYC
  else if a = 0xFF46#16 then some .DMA
  else if a = 0xFF47#16 then some .BGP
  else if a = 0xFF48#16 then some .OBP0
  else if a = 0xFF49#16 then some .OBP1
  else if a = 0xFF4A#16 then some .WY
  else if a = 0xFF4B#16 then some .WX
  else none

end Sys2Proof.Machine
end

