-- ==== Sys2Proof/Machine/State.lean ====
section
/-! DEFINITION. The machine's state (10_state.md), its faults and refusals, and its reset (R55). -/

namespace Sys2Proof.Machine

/-- R20, R21: the register file, eight cells of eight bits. The flags are bits 7 to 4 of `f` (R24). -/
structure Regs where
  a : Byte
  f : Byte
  b : Byte
  c : Byte
  d : Byte
  e : Byte
  h : Byte
  l : Byte
deriving DecidableEq, Repr

/-- R35 to R38: the timer's registers. -/
structure Timer where
  div16 : Word
  tima : Byte
  tma : Byte
  tac : Byte
deriving DecidableEq, Repr

/-- R39 to R50: the picture unit's registers, memories and hidden state. -/
structure Ppu where
  lcdc : Byte
  stat : Byte
  scy : Byte
  scx : Byte
  ly : Byte
  lyc : Byte
  dma : Byte
  bgp : Byte
  obp0 : Byte
  obp1 : Byte
  wy : Byte
  wx : Byte
  /-- R48: keyed by bus address. -/
  vram : Memory
  /-- R49: keyed by offset 0 to 159. -/
  oam : Memory
  lcdActive : Bool
  lcdOnCycle : Nat
  winY : Nat
  dmaActive : Bool
  dmaIndex : Nat
  /-- R50(e): the lines composed so far, one slot a visible line. -/
  nextFrame : List (Option (LcdImageLine 160))
  /-- R50(f): 144 rows of 160 colour indices, row 0 and column 0 first. -/
  currentImage : List (List (BitVec 2))
deriving DecidableEq, Repr

/-- What the host can do wrong that a model of this spec can express (60_exceptions.md R383(e)). -/
inductive HostCall where
  /-- `RunUntil` with a target below the cycle count (R421). -/
  | runUntilRegression
deriving DecidableEq, Repr

/-- 60_exceptions.md R380: the complete list of faults. -/
inductive Fault where
  /-- Raised by `STOP` (47_misc.md R367), in the CPU step. Safe: the spec names the fault and its effect. -/
  | stopInstruction (pc : Word)
  /-- Raised by the eleven unassigned first bytes (R368), in the CPU step. Safe: the spec's decision D6 errs
  toward refusing. -/
  | illegalOpcode (pc : Word) (byte : Byte)
  /-- Raised by the host call `runUntil` (R421), outside any tick; the machine is unchanged. Safe. -/
  | hostContractViolation (what : HostCall)
  /-- Raised by the cartridge loader (20_memory.md R93), before tick 0. Safe. -/
  | unsupportedCartridge (type : Byte)
deriving DecidableEq, Repr

/-- R380: the spec's numbering of the faults. -/
def Fault.code : Fault → Nat
  | .stopInstruction _ => 1
  | .illegalOpcode _ _ => 2
  | .hostContractViolation _ => 3
  | .unsupportedCartridge _ => 4

/-- What the model gives no meaning. -/
inductive Refusal where
  /-- An instruction of the opcode table that has no meaning yet; raised in exec's arms only. Safe. -/
  | notModelled (mnemonic : String)
  /-- A cartridge of type 1 to 3 given to the loader: the banked controllers are out of scope (00_scope.md R5,
  20_memory.md R93). Raised by the loader only, never by a step. Safe. -/
  | bankedCartridge (type : Byte)
deriving DecidableEq, Repr

/-- The whole machine. -/
structure State where
  regs : Regs
  /-- R25. -/
  pc : Word
  /-- R26. -/
  sp : Word
  /-- R27. -/
  ime : Bool
  /-- R28: IE. -/
  ie : Byte
  /-- R29: IF. -/
  iflag : Byte
  /-- R31. -/
  halted : Bool
  /-- R32: the cycle of the next instruction boundary. -/
  next : Nat
  /-- R33. -/
  fault : Option Fault
  /-- R34: keyed by bus address. -/
  hram : Memory
  timer : Timer
  ppu : Ppu
  /-- R51: the ticks completed. -/
  cycles : Nat
  /-- R52, R54: the components and parameters; no step changes it. -/
  platform : Platform
  /-- R83 to R86: the storage of the platform's components, keyed as `Region.key` says. -/
  mem : Memory
  /-- R86. -/
  bootActive : Bool
deriving DecidableEq, Repr

/-- R55: every register cell 0x00. -/
def Regs.reset : Regs := ⟨0#8, 0#8, 0#8, 0#8, 0#8, 0#8, 0#8, 0#8⟩

/-- R55. -/
def Timer.reset : Timer := ⟨0#16, 0#8, 0#8, 0#8⟩

/-- R55: LCD off, mode 0, every register and byte 0, no line composed, every pixel of the image 0. -/
def Ppu.reset : Ppu :=
  { lcdc := 0#8, stat := 0#8, scy := 0#8, scx := 0#8, ly := 0#8, lyc := 0#8, dma := 0#8
    bgp := 0#8, obp0 := 0#8, obp1 := 0#8, wy := 0#8, wx := 0#8, vram := [], oam := []
    lcdActive := false, lcdOnCycle := 0, winY := 0, dmaActive := false, dmaIndex := 0
    nextFrame := List.replicate 144 none
    currentImage := List.replicate 144 (List.replicate 160 0#2) }

/-- 70_reset_and_hazards.md R520, R521: construction, the one reset, for a platform and the contents of its
storage (ROM image, initial RAM), which are parameters of construction. -/
def State.construct (p : Platform) (contents : Memory) : State :=
  { regs := Regs.reset, pc := 0#16, sp := 0#16, ime := false, ie := 0#8, iflag := 0#8, halted := false
    next := 0, fault := none, hram := [], timer := Timer.reset, ppu := Ppu.reset, cycles := 0
    platform := p, mem := contents, bootActive := p.hasBootRom }

/-- R55 with the default platform of R90 and nothing in its storage. -/
def State.reset : State := State.construct Platform.default []

end Sys2Proof.Machine
end

