-- ==== Sys2Proof/Machine/Clock.lean ====
section
/-! DEFINITION. The timer (60_exceptions.md R405 to R412) and interrupt requests (R388). -/

namespace Sys2Proof.Machine

/-- R30, R385: the five interrupt lines. -/
inductive Line where
  | VBLANK | LCD_STAT | TIMER | SERIAL | JOYPAD
deriving DecidableEq, Repr

/-- R30: the stable index of a line, its bit in IE and IF. -/
def Line.index : Line → Nat
  | .VBLANK => 0
  | .LCD_STAT => 1
  | .TIMER => 2
  | .SERIAL => 3
  | .JOYPAD => 4

/-- R388: `IF <- IF OR (1 << i)`. -/
def requestInterrupt (i : Line) (s : State) : State := { s with iflag := s.iflag ||| mask 8 i.index }

/-- R406: `SelBit`. -/
def selBit : Nat → Nat
  | 0 => 9
  | 1 => 3
  | 2 => 5
  | _ => 7

/-- R406: the selected divider bit and the enable bit. -/
def timerSignal (t : Timer) : Bool :=
  t.tac.getLsbD 2 && t.div16.getLsbD (selBit (extract t.tac 0 2))

/-- R412: on overflow TIMA reloads from TMA and the TIMER interrupt is raised, in the same step. -/
def timaIncrement (s : State) : State :=
  if s.timer.tima = 0xFF#8 then
    requestInterrupt .TIMER { s with timer := { s.timer with tima := s.timer.tma } }
  else { s with timer := { s.timer with tima := s.timer.tima + 1#8 } }

/-- R407: an increment on a falling edge, `s0` the signal before the change. -/
def timerEdge (s0 : Bool) (s : State) : State :=
  if s0 && !timerSignal s.timer then timaIncrement s else s

/-- The form common to R408, R409 and R411: sample the signal, change the timer, check the edge. -/
def timerUpdate (change : Timer → Timer) (s : State) : State :=
  timerEdge (timerSignal s.timer) { s with timer := change s.timer }

/-- R408: the timer's step of every tick. -/
def timerStep (s : State) : State := timerUpdate (fun t => { t with div16 := t.div16 + 4#16 }) s

/-- R409: a write to DIV, any data. -/
def writeDiv (s : State) : State := timerUpdate (fun t => { t with div16 := 0#16 }) s

/-- R411: a write to TAC. -/
def writeTac (v : Byte) (s : State) : State := timerUpdate (fun t => { t with tac := v }) s

/-- R410. -/
def writeTima (v : Byte) (s : State) : State := { s with timer := { s.timer with tima := v } }

/-- R410. -/
def writeTma (v : Byte) (s : State) : State := { s with timer := { s.timer with tma := v } }

end Sys2Proof.Machine
end

