-- ==== Sys2Proof/Machine/Lcd.lean ====
section
/-! DEFINITION. The PPU's registers, its status and coincidence logic, LCD off and the start of a DMA copy
(65_ppu.md R451 to R460): everything of the PPU that a bus write can set going. -/

namespace Sys2Proof.Machine

/-- The stored byte of a PPU register (R451: reads have no side effect). -/
def Ppu.readReg (p : Ppu) : PpuReg → Byte
  | .LCDC => p.lcdc
  | .STAT => p.stat
  | .SCY => p.scy
  | .SCX => p.scx
  | .LY => p.ly
  | .LYC => p.lyc
  | .DMA => p.dma
  | .BGP => p.bgp
  | .OBP0 => p.obp0
  | .OBP1 => p.obp1
  | .WY => p.wy
  | .WX => p.wx

/-- STAT with its mode bits replaced (R41: bits 1:0). -/
def statWithMode (stat : Byte) (m : Byte) : Byte := (stat &&& 0xFC#8) ||| m

/-- R458. -/
def coincidence (s : State) : State :=
  if s.ppu.ly = s.ppu.lyc then
    let s1 := { s with ppu := { s.ppu with stat := setBit s.ppu.stat 2 true } }
    if s.ppu.stat.getLsbD 6 then requestInterrupt .LCD_STAT s1 else s1
  else { s with ppu := { s.ppu with stat := setBit s.ppu.stat 2 false } }

/-- R455. -/
def setLY (v : Byte) (s : State) : State := coincidence { s with ppu := { s.ppu with ly := v } }

/-- R457: modes 0, 1 and 2 have an enable bit, `STAT[3 + m]`, sampled at the transition; mode 3 has none. -/
def setMode (m : Nat) (s : State) : State :=
  let s1 := { s with ppu := { s.ppu with stat := statWithMode s.ppu.stat (BitVec.ofNat 8 m) } }
  if m ≠ 3 ∧ s.ppu.stat.getLsbD (3 + m) = true then requestInterrupt .LCD_STAT s1 else s1

/-- R453: no mode interrupt is raised; the coincidence can raise. -/
def lcdOff (s : State) : State :=
  coincidence { s with ppu := { s.ppu with lcdActive := false, stat := statWithMode s.ppu.stat 0#8, ly := 0#8 } }

/-- R460. -/
def dmaStart (s : State) : State := { s with ppu := { s.ppu with dmaActive := true, dmaIndex := 0 } }

/-- R451: a bus write to a PPU register. -/
def writePpuReg (r : PpuReg) (d : Byte) (s : State) : State :=
  match r with
  | .LCDC =>
    let s1 := { s with ppu := { s.ppu with lcdc := d } }
    if !d.getLsbD 7 && s.ppu.lcdActive then lcdOff s1 else s1
  | .STAT => { s with ppu := { s.ppu with stat := (d &&& 0xF8#8) ||| (s.ppu.stat &&& 0x07#8) } }
  | .SCY => { s with ppu := { s.ppu with scy := d } }
  | .SCX => { s with ppu := { s.ppu with scx := d } }
  | .LY => s
  | .LYC => coincidence { s with ppu := { s.ppu with lyc := d } }
  | .DMA => dmaStart { s with ppu := { s.ppu with dma := d } }
  | .BGP => { s with ppu := { s.ppu with bgp := d } }
  | .OBP0 => { s with ppu := { s.ppu with obp0 := d } }
  | .OBP1 => { s with ppu := { s.ppu with obp1 := d } }
  | .WY => { s with ppu := { s.ppu with wy := d } }
  | .WX => { s with ppu := { s.ppu with wx := d } }

end Sys2Proof.Machine
end

