-- ==== Sys2Proof/Machine/Bus.lean ====
section
/-! DEFINITION. The bus (20_memory.md R70 to R86): components in attachment order, the first owner answers a
read, every owner takes a write. -/

namespace Sys2Proof.Machine

/-- The byte an undriven bus reads as (R73, `BUS_DEFAULT`). -/
def busDefault : Byte := 0xFF#8

/-- R71, R80 to R86: a component's answer to a read, `none` for `NO_DATA`. Every read is pure (R72, R99, log 10).
DESIGN CHOICE (log 19): R90 names the boot-ROM shadow as the owner of 0xFF50 and R86 gives only a write's effect
there; the shadow gives a read of 0xFF50 no data, so that the bus reads 0xFF where no other component answers. -/
def Component.read (comp : Component) (s : State) (a : Word) : Option Byte :=
  match comp with
  | .cpu =>
    if a = addrIE then some s.ie
    else if a = addrIF then some s.iflag
    else if inHighRam a then some (s.hram.read a.toNat)
    else none
  | .timer =>
    if a = addrDIV then some (highByte s.timer.div16)
    else if a = addrTIMA then some s.timer.tima
    else if a = addrTMA then some s.timer.tma
    else if a = addrTAC then some s.timer.tac
    else none
  | .ppu =>
    if inVram a then some (s.ppu.vram.read a.toNat)
    else if inOam a then some (s.ppu.oam.read (oamOffset a))
    else (PpuReg.ofAddr a).map s.ppu.readReg
  | .ram r => if r.owns a then some (s.mem.read (r.key a)) else none
  | .rom r => if r.owns a then some (s.mem.read (r.key a)) else none
  | .bootRom base => if s.bootActive && inBootWindow a then some (s.mem.read (base + a.toNat)) else none

/-- R71, R80 to R86: a component's reaction to a write; outside what it owns it does nothing. -/
def Component.write (comp : Component) (a : Word) (d : Byte) (s : State) : State :=
  match comp with
  | .cpu =>
    if a = addrIE then { s with ie := d }
    else if a = addrIF then { s with iflag := d }
    else if inHighRam a then { s with hram := s.hram.write a.toNat d }
    else s
  | .timer =>
    if a = addrDIV then writeDiv s
    else if a = addrTIMA then writeTima d s
    else if a = addrTMA then writeTma d s
    else if a = addrTAC then writeTac d s
    else s
  | .ppu =>
    if inVram a then { s with ppu := { s.ppu with vram := s.ppu.vram.write a.toNat d } }
    else if inOam a then { s with ppu := { s.ppu with oam := s.ppu.oam.write (oamOffset a) d } }
    else match PpuReg.ofAddr a with
      | some r => writePpuReg r d s
      | none => s
  | .ram r => if r.owns a then { s with mem := s.mem.write (r.key a) d } else s
  | .rom _ => s
  | .bootRom _ => if a = addrBoot then { s with bootActive := false } else s

/-- R73: `MemRead(a, 1)`. -/
def State.busRead (s : State) (a : Word) : Byte :=
  (s.platform.components.findSome? fun comp => comp.read s a).getD busDefault

/-- R74: `MemWrite(a, 1, d)`. -/
def State.busWrite (s : State) (a : Word) (d : Byte) : State :=
  s.platform.components.foldl (fun t comp => comp.write a d t) s

/-- R11: `MemRead(a, 2)`, low byte at the lower address, addresses modulo 2^16. -/
def State.busRead16 (s : State) (a : Word) : Word := make16 (s.busRead (a + 1#16)) (s.busRead a)

/-- R11: `MemWrite(a, 2, v)`, low byte first. -/
def State.busWrite16 (s : State) (a : Word) (v : Word) : State :=
  (s.busWrite a (lowByte v)).busWrite (a + 1#16) (highByte v)

end Sys2Proof.Machine
end

