-- ==== Sys2Proof/Syntax.lean ====
section
/-! DEFINITION. Syntax: the operand codes of 30_encoding.md section 2 and one constructor for each of the 512
rows of opcode_table.json, named as the row's mnemonic (`__X` and `__X__`, a memory operand, are
written `_atX` and `_atX_`; `HL+`, `HL-`, `SP+e8` are written `HLinc`, `HLdec`, `SPe8`). An operand byte or word of the row's format (R122) is the constructor's argument. -/

namespace Sys2Proof

/-- R125: the seven registers an r8 code names; code 6 is `(HL)` and belongs to other constructors. -/
inductive R8 where
  | B | C | D | E | H | L | A
deriving DecidableEq, Repr

/-- R126: the r16 codes of the families that can name the stack pointer. -/
inductive R16 where
  | BC | DE | HL | SP
deriving DecidableEq, Repr

/-- R126: the r16 codes of `PUSH` and `POP`. -/
inductive R16S where
  | BC | DE | HL | AF
deriving DecidableEq, Repr

/-- R215 to R222: the memory operands of the accumulator loads and stores in column 2 of R132. -/
inductive Ind where
  | BC | DE | HLinc | HLdec
deriving DecidableEq, Repr

/-- R127: the condition codes. -/
inductive Cond where
  | NZ | Z | NC | C
deriving DecidableEq, Repr

/-- R132: the eight two-operand operations on A, in the order of their field. -/
inductive AluOp where
  | ADD | ADC | SUB | SBC | AND | XOR | OR | CP
deriving DecidableEq, Repr

/-- R133: the eight kinds of prefixed rotate, shift and swap, in the order of their field. -/
inductive RotOp where
  | RLC | RRC | RL | RR | SLA | SRA | SWAP | SRL
deriving DecidableEq, Repr

/-- R130: a three-bit field that is itself an operand: the bit index nnn, or ttt of `RST`. -/
inductive Field3 where
  | f0 | f1 | f2 | f3 | f4 | f5 | f6 | f7
deriving DecidableEq, Repr

/-- The value of the field. -/
def Field3.val : Field3 → Nat
  | .f0 => 0
  | .f1 => 1
  | .f2 => 2
  | .f3 => 3
  | .f4 => 4
  | .f5 => 5
  | .f6 => 6
  | .f7 => 7

/-- The instructions: one constructor a row of opcode_table.json: first the rows with an immediate, then the others
(the direct table, then the prefixed one).
`PREFIX_CB` is the row of the prefix byte itself, which R124 says is no instruction (see WellFormed.lean). -/
inductive Instr where
  | LD_BC_n16 (n : Word)
  | LD_B_n8 (n : Byte)
  | LD_atn16_SP (n : Word)
  | LD_C_n8 (n : Byte)
  | LD_DE_n16 (n : Word)
  | LD_D_n8 (n : Byte)
  | JR_e8 (e : Byte)
  | LD_E_n8 (n : Byte)
  | JR_NZ_e8 (e : Byte)
  | LD_HL_n16 (n : Word)
  | LD_H_n8 (n : Byte)
  | JR_Z_e8 (e : Byte)
  | LD_L_n8 (n : Byte)
  | JR_NC_e8 (e : Byte)
  | LD_SP_n16 (n : Word)
  | LD_atHL_n8 (n : Byte)
  | JR_C_e8 (e : Byte)
  | LD_A_n8 (n : Byte)
  | JP_NZ_n16 (n : Word)
  | JP_n16 (n : Word)
  | CALL_NZ_n16 (n : Word)
  | ADD_A_n8 (n : Byte)
  | JP_Z_n16 (n : Word)
  | CALL_Z_n16 (n : Word)
  | CALL_n16 (n : Word)
  | ADC_A_n8 (n : Byte)
  | JP_NC_n16 (n : Word)
  | CALL_NC_n16 (n : Word)
  | SUB_n8 (n : Byte)
  | JP_C_n16 (n : Word)
  | CALL_C_n16 (n : Word)
  | SBC_A_n8 (n : Byte)
  | LDH_atn8_A (n : Byte)
  | AND_n8 (n : Byte)
  | ADD_SP_e8 (e : Byte)
  | LD_atn16_A (n : Word)
  | XOR_n8 (n : Byte)
  | LDH_A_atn8 (n : Byte)
  | OR_n8 (n : Byte)
  | LD_HL_SPe8 (e : Byte)
  | LD_A_atn16 (n : Word)
  | CP_n8 (n : Byte)
  | NOP
  | LD_atBC_A
  | INC_BC
  | INC_B
  | DEC_B
  | RLCA
  | ADD_HL_BC
  | LD_A_atBC
  | DEC_BC
  | INC_C
  | DEC_C
  | RRCA
  | STOP
  | LD_atDE_A
  | INC_DE
  | INC_D
  | DEC_D
  | RLA
  | ADD_HL_DE
  | LD_A_atDE
  | DEC_DE
  | INC_E
  | DEC_E
  | RRA
  | LD_atHLinc_A
  | INC_HL
  | INC_H
  | DEC_H
  | DAA
  | ADD_HL_HL
  | LD_A_atHLinc
  | DEC_HL
  | INC_L
  | DEC_L
  | CPL
  | LD_atHLdec_A
  | INC_SP
  | INC_atHL
  | DEC_atHL
  | SCF
  | ADD_HL_SP
  | LD_A_atHLdec
  | DEC_SP
  | INC_A
  | DEC_A
  | CCF
  | LD_B_B
  | LD_B_C
  | LD_B_D
  | LD_B_E
  | LD_B_H
  | LD_B_L
  | LD_B_atHL
  | LD_B_A
  | LD_C_B
  | LD_C_C
  | LD_C_D
  | LD_C_E
  | LD_C_H
  | LD_C_L
  | LD_C_atHL
  | LD_C_A
  | LD_D_B
  | LD_D_C
  | LD_D_D
  | LD_D_E
  | LD_D_H
  | LD_D_L
  | LD_D_atHL
  | LD_D_A
  | LD_E_B
  | LD_E_C
  | LD_E_D
  | LD_E_E
  | LD_E_H
  | LD_E_L
  | LD_E_atHL
  | LD_E_A
  | LD_H_B
  | LD_H_C
  | LD_H_D
  | LD_H_E
  | LD_H_H
  | LD_H_L
  | LD_H_atHL
  | LD_H_A
  | LD_L_B
  | LD_L_C
  | LD_L_D
  | LD_L_E
  | LD_L_H
  | LD_L_L
  | LD_L_atHL
  | LD_L_A
  | LD_atHL_B
  | LD_atHL_C
  | LD_atHL_D
  | LD_atHL_E
  | LD_atHL_H
  | LD_atHL_L
  | HALT
  | LD_atHL_A
  | LD_A_B
  | LD_A_C
  | LD_A_D
  | LD_A_E
  | LD_A_H
  | LD_A_L
  | LD_A_atHL
  | LD_A_A
  | ADD_A_B
  | ADD_A_C
  | ADD_A_D
  | ADD_A_E
  | ADD_A_H
  | ADD_A_L
  | ADD_A_atHL
  | ADD_A_A
  | ADC_A_B
  | ADC_A_C
  | ADC_A_D
  | ADC_A_E
  | ADC_A_H
  | ADC_A_L
  | ADC_A_atHL
  | ADC_A_A
  | SUB_B
  | SUB_C
  | SUB_D
  | SUB_E
  | SUB_H
  | SUB_L
  | SUB_atHL
  | SUB_A
  | SBC_A_B
  | SBC_A_C
  | SBC_A_D
  | SBC_A_E
  | SBC_A_H
  | SBC_A_L
  | SBC_A_atHL
  | SBC_A_A
  | AND_B
  | AND_C
  | AND_D
  | AND_E
  | AND_H
  | AND_L
  | AND_atHL
  | AND_A
  | XOR_B
  | XOR_C
  | XOR_D
  | XOR_E
  | XOR_H
  | XOR_L
  | XOR_atHL
  | XOR_A
  | OR_B
  | OR_C
  | OR_D
  | OR_E
  | OR_H
  | OR_L
  | OR_atHL
  | OR_A
  | CP_B
  | CP_C
  | CP_D
  | CP_E
  | CP_H
  | CP_L
  | CP_atHL
  | CP_A
  | RET_NZ
  | POP_BC
  | PUSH_BC
  | RST_00h
  | RET_Z
  | RET
  | PREFIX_CB
  | RST_08h
  | RET_NC
  | POP_DE
  | ILLEGAL_D3
  | PUSH_DE
  | RST_10h
  | RET_C
  | RETI
  | ILLEGAL_DB
  | ILLEGAL_DD
  | RST_18h
  | POP_HL
  | LD_atC_A
  | ILLEGAL_E3
  | ILLEGAL_E4
  | PUSH_HL
  | RST_20h
  | JP_HL
  | ILLEGAL_EB
  | ILLEGAL_EC
  | ILLEGAL_ED
  | RST_28h
  | POP_AF
  | LD_A_atC
  | DI
  | ILLEGAL_F4
  | PUSH_AF
  | RST_30h
  | LD_SP_HL
  | EI
  | ILLEGAL_FC
  | ILLEGAL_FD
  | RST_38h
  | RLC_B
  | RLC_C
  | RLC_D
  | RLC_E
  | RLC_H
  | RLC_L
  | RLC_atHL
  | RLC_A
  | RRC_B
  | RRC_C
  | RRC_D
  | RRC_E
  | RRC_H
  | RRC_L
  | RRC_atHL
  | RRC_A
  | RL_B
  | RL_C
  | RL_D
  | RL_E
  | RL_H
  | RL_L
  | RL_atHL
  | RL_A
  | RR_B
  | RR_C
  | RR_D
  | RR_E
  | RR_H
  | RR_L
  | RR_atHL
  | RR_A
  | SLA_B
  | SLA_C
  | SLA_D
  | SLA_E
  | SLA_H
  | SLA_L
  | SLA_atHL
  | SLA_A
  | SRA_B
  | SRA_C
  | SRA_D
  | SRA_E
  | SRA_H
  | SRA_L
  | SRA_atHL
  | SRA_A
  | SWAP_B
  | SWAP_C
  | SWAP_D
  | SWAP_E
  | SWAP_H
  | SWAP_L
  | SWAP_atHL
  | SWAP_A
  | SRL_B
  | SRL_C
  | SRL_D
  | SRL_E
  | SRL_H
  | SRL_L
  | SRL_atHL
  | SRL_A
  | BIT_0_B
  | BIT_0_C
  | BIT_0_D
  | BIT_0_E
  | BIT_0_H
  | BIT_0_L
  | BIT_0_atHL
  | BIT_0_A
  | BIT_1_B
  | BIT_1_C
  | BIT_1_D
  | BIT_1_E
  | BIT_1_H
  | BIT_1_L
  | BIT_1_atHL
  | BIT_1_A
  | BIT_2_B
  | BIT_2_C
  | BIT_2_D
  | BIT_2_E
  | BIT_2_H
  | BIT_2_L
  | BIT_2_atHL
  | BIT_2_A
  | BIT_3_B
  | BIT_3_C
  | BIT_3_D
  | BIT_3_E
  | BIT_3_H
  | BIT_3_L
  | BIT_3_atHL
  | BIT_3_A
  | BIT_4_B
  | BIT_4_C
  | BIT_4_D
  | BIT_4_E
  | BIT_4_H
  | BIT_4_L
  | BIT_4_atHL
  | BIT_4_A
  | BIT_5_B
  | BIT_5_C
  | BIT_5_D
  | BIT_5_E
  | BIT_5_H
  | BIT_5_L
  | BIT_5_atHL
  | BIT_5_A
  | BIT_6_B
  | BIT_6_C
  | BIT_6_D
  | BIT_6_E
  | BIT_6_H
  | BIT_6_L
  | BIT_6_atHL
  | BIT_6_A
  | BIT_7_B
  | BIT_7_C
  | BIT_7_D
  | BIT_7_E
  | BIT_7_H
  | BIT_7_L
  | BIT_7_atHL
  | BIT_7_A
  | RES_0_B
  | RES_0_C
  | RES_0_D
  | RES_0_E
  | RES_0_H
  | RES_0_L
  | RES_0_atHL
  | RES_0_A
  | RES_1_B
  | RES_1_C
  | RES_1_D
  | RES_1_E
  | RES_1_H
  | RES_1_L
  | RES_1_atHL
  | RES_1_A
  | RES_2_B
  | RES_2_C
  | RES_2_D
  | RES_2_E
  | RES_2_H
  | RES_2_L
  | RES_2_atHL
  | RES_2_A
  | RES_3_B
  | RES_3_C
  | RES_3_D
  | RES_3_E
  | RES_3_H
  | RES_3_L
  | RES_3_atHL
  | RES_3_A
  | RES_4_B
  | RES_4_C
  | RES_4_D
  | RES_4_E
  | RES_4_H
  | RES_4_L
  | RES_4_atHL
  | RES_4_A
  | RES_5_B
  | RES_5_C
  | RES_5_D
  | RES_5_E
  | RES_5_H
  | RES_5_L
  | RES_5_atHL
  | RES_5_A
  | RES_6_B
  | RES_6_C
  | RES_6_D
  | RES_6_E
  | RES_6_H
  | RES_6_L
  | RES_6_atHL
  | RES_6_A
  | RES_7_B
  | RES_7_C
  | RES_7_D
  | RES_7_E
  | RES_7_H
  | RES_7_L
  | RES_7_atHL
  | RES_7_A
  | SET_0_B
  | SET_0_C
  | SET_0_D
  | SET_0_E
  | SET_0_H
  | SET_0_L
  | SET_0_atHL
  | SET_0_A
  | SET_1_B
  | SET_1_C
  | SET_1_D
  | SET_1_E
  | SET_1_H
  | SET_1_L
  | SET_1_atHL
  | SET_1_A
  | SET_2_B
  | SET_2_C
  | SET_2_D
  | SET_2_E
  | SET_2_H
  | SET_2_L
  | SET_2_atHL
  | SET_2_A
  | SET_3_B
  | SET_3_C
  | SET_3_D
  | SET_3_E
  | SET_3_H
  | SET_3_L
  | SET_3_atHL
  | SET_3_A
  | SET_4_B
  | SET_4_C
  | SET_4_D
  | SET_4_E
  | SET_4_H
  | SET_4_L
  | SET_4_atHL
  | SET_4_A
  | SET_5_B
  | SET_5_C
  | SET_5_D
  | SET_5_E
  | SET_5_H
  | SET_5_L
  | SET_5_atHL
  | SET_5_A
  | SET_6_B
  | SET_6_C
  | SET_6_D
  | SET_6_E
  | SET_6_H
  | SET_6_L
  | SET_6_atHL
  | SET_6_A
  | SET_7_B
  | SET_7_C
  | SET_7_D
  | SET_7_E
  | SET_7_H
  | SET_7_L
  | SET_7_atHL
  | SET_7_A
deriving DecidableEq, Repr

end Sys2Proof
end

