-- ==== Sys2Proof/Machine/Flags.lean ====
section
/-! DEFINITION. The arithmetic/flag unit of 40_alu.md sections 2 to 6 (R175 to R191) and the routing of its
flags to register F (R176). Every primitive is pure; sums and differences are taken exactly, then narrowed. -/

namespace Sys2Proof.Machine

/-- R13, R175: an ALU result, the value and the four flag bits. -/
structure AluResult (w : Nat) where
  v : BitVec w
  zf : Bool
  nf : Bool
  hf : Bool
  cf : Bool
deriving DecidableEq, Repr

/-- R24: the byte whose bits 7, 6, 5, 4 are Z, N, H, C and whose low nibble is 0. -/
def packFlags (z n h c : Bool) : Byte :=
  BitVec.ofBool z ++ BitVec.ofBool n ++ BitVec.ofBool h ++ BitVec.ofBool c ++ 0#4

/-- R175: `(v << 8) | (zf << 7) | (nf << 6) | (hf << 5) | (cf << 4)`, unbounded. -/
def AluResult.pack {w : Nat} (r : AluResult w) : Nat :=
  r.v.toNat * 256 + (packFlags r.zf r.nf r.hf r.cf).toNat

/-- R175: `unpackValue(p) = p >> 8`. -/
def unpackValue (p : Nat) : Nat := p / 256

/-- R175: `unpackFlags(p) = p & 0xFF`. -/
def unpackFlags (p : Nat) : Byte := BitVec.ofNat 8 p

/-- R176: the four sources of a flag. -/
inductive FlagSource where
  | alu | keep | zero | one
deriving DecidableEq, Repr

/-- R176: the bit a source gives, from the ALU's bit and the old bit. -/
def FlagSource.bit : FlagSource → Bool → Bool → Bool
  | .alu, a, _ => a
  | .keep, _, old => old
  | .zero, _, _ => false
  | .one, _, _ => true

/-- R176: a routing string, in the order Z N H C. -/
structure Routing where
  z : FlagSource
  n : FlagSource
  h : FlagSource
  c : FlagSource
deriving DecidableEq, Repr

/-- R176: the new F. Bits 3 to 0 are 0 whatever the old F held. -/
def Routing.apply {w : Nat} (ρ : Routing) (r : AluResult w) (oldF : Byte) : Byte :=
  packFlags (ρ.z.bit r.zf (oldF.getLsbD 7)) (ρ.n.bit r.nf (oldF.getLsbD 6))
    (ρ.h.bit r.hf (oldF.getLsbD 5)) (ρ.c.bit r.cf (oldF.getLsbD 4))

/-- `A0AA` -/
def routeAdd : Routing := ⟨.alu, .zero, .alu, .alu⟩
/-- `A1AA` -/
def routeSub : Routing := ⟨.alu, .one, .alu, .alu⟩
/-- `AAAA` -/
def routeAll : Routing := ⟨.alu, .alu, .alu, .alu⟩
/-- `A0A-` -/
def routeInc : Routing := ⟨.alu, .zero, .alu, .keep⟩
/-- `A1A-` -/
def routeDec : Routing := ⟨.alu, .one, .alu, .keep⟩
/-- `-0AA` -/
def routeAddHl : Routing := ⟨.keep, .zero, .alu, .alu⟩
/-- `00AA` -/
def routeAddSp : Routing := ⟨.zero, .zero, .alu, .alu⟩
/-- `-11-` -/
def routeCpl : Routing := ⟨.keep, .one, .one, .keep⟩
/-- `000A` -/
def routeRotA : Routing := ⟨.zero, .zero, .zero, .alu⟩
/-- `A00A` -/
def routeRot : Routing := ⟨.alu, .zero, .zero, .alu⟩
/-- `A000` -/
def routeSwap : Routing := ⟨.alu, .zero, .zero, .zero⟩
/-- `A01-` -/
def routeBit : Routing := ⟨.alu, .zero, .one, .keep⟩
/-- `A-0A` -/
def routeDaa : Routing := ⟨.alu, .keep, .zero, .alu⟩
/-- `-001` -/
def routeScf : Routing := ⟨.keep, .zero, .zero, .one⟩

/-- R177. -/
def add8 (l r : Byte) (c0 : Bool) : AluResult 8 :=
  let s := l.toNat + r.toNat + c0.toNat
  let v := BitVec.ofNat 8 s
  { v := v, zf := v == 0#8, nf := false
    hf := decide (0xF < l.toNat % 16 + r.toNat % 16 + c0.toNat)
    cf := decide (0xFF < s) }

/-- R178. -/
def sub8 (l r : Byte) (b0 : Bool) : AluResult 8 :=
  let d : Int := (l.toNat : Int) - r.toNat - b0.toNat
  let v := BitVec.ofInt 8 d
  { v := v, zf := v == 0#8, nf := true
    hf := decide (((l.toNat % 16 : Nat) : Int) - (r.toNat % 16 : Nat) - b0.toNat < 0)
    cf := decide (d < 0) }

/-- R179: carries from the low byte boundary; zf is 0 whatever the value. -/
def add16L (l r : Word) : AluResult 16 :=
  { v := BitVec.ofNat 16 (l.toNat + r.toNat), zf := false, nf := false
    hf := decide (0xF < l.toNat % 16 + r.toNat % 16)
    cf := decide (0xFF < l.toNat % 256 + r.toNat % 256) }

/-- R180: carries from the high byte boundary; zf is 0 whatever the value. -/
def add16H (l r : Word) : AluResult 16 :=
  { v := BitVec.ofNat 16 (l.toNat + r.toNat), zf := false, nf := false
    hf := decide (0xFFF < l.toNat % 4096 + r.toNat % 4096)
    cf := decide (0xFFFF < l.toNat + r.toNat) }

/-- R181. -/
def bcdAdjust (v : Byte) (n h c : Bool) : AluResult 8 :=
  let fixL := h || (!n && decide (9 < v.toNat % 16))
  let fixH := c || (!n && decide (0x99 < v.toNat))
  let fix := 0x60 * fixH.toNat + 0x06 * fixL.toNat
  let va := if n then BitVec.ofInt 8 ((v.toNat : Int) - fix) else BitVec.ofNat 8 (v.toNat + fix)
  { v := va, zf := va == 0#8, nf := n, hf := false, cf := fixH }

/-- R183. -/
def and8 (l r : Byte) : AluResult 8 :=
  let v := l &&& r
  { v := v, zf := v == 0#8, nf := false, hf := true, cf := false }

/-- R183. -/
def or8 (l r : Byte) : AluResult 8 :=
  let v := l ||| r
  { v := v, zf := v == 0#8, nf := false, hf := false, cf := false }

/-- R183. -/
def xor8 (l r : Byte) : AluResult 8 :=
  let v := l ^^^ r
  { v := v, zf := v == 0#8, nf := false, hf := false, cf := false }

/-- The common form of R185 to R190: Z from the value, N = H = 0. -/
def shifted (v : Byte) (c : Bool) : AluResult 8 :=
  { v := v, zf := v == 0#8, nf := false, hf := false, cf := c }

/-- R185. -/
def shiftLeft8 (v : Byte) : AluResult 8 := shifted (v <<< 1) (v.getLsbD 7)

/-- R186: bit 7 is kept. -/
def shiftRightA8 (v : Byte) : AluResult 8 := shifted ((v >>> 1) ||| (v &&& 0x80#8)) (v.getLsbD 0)

/-- R187: bit 7 becomes 0. -/
def shiftRightL8 (v : Byte) : AluResult 8 := shifted (v >>> 1) (v.getLsbD 0)

/-- R123, R188: the direction of a rotation. -/
inductive Dir where
  | left | right
deriving DecidableEq, Repr

/-- R188: the carry is the bit that wrapped around. -/
def rotate8 (dir : Dir) (v : Byte) : AluResult 8 :=
  match dir with
  | .left => shifted (rotate v 1) (v.getLsbD 7)
  | .right => shifted (rotate v (-1)) (v.getLsbD 0)

/-- R189: the carry is bit 8 of a 9-bit quantity rotated by one place. -/
def rotateC8 (dir : Dir) (v : Byte) (c : Bool) : AluResult 8 :=
  let w : BitVec 9 := BitVec.ofBool c ++ v
  let w' := match dir with
    | .left => rotate w 1
    | .right => rotate w (-1)
  shifted (w'.extractLsb' 0 8) (w'.getLsbD 8)

/-- R190. -/
def swap8 (v : Byte) : AluResult 8 := shifted (rotate v 4) false

/-- R191: Z is the negation of the tested bit, H = 1, value 0. -/
def testBit8 (v : Byte) (i : Nat) : AluResult 8 :=
  { v := 0#8, zf := !testBit v i, nf := false, hf := true, cf := false }

/-- The primitive of each two-operand operation on A (R250 to R264, R290 to R298); `c` is F.C. -/
def aluResult : AluOp → Byte → Byte → Bool → AluResult 8
  | .ADD, l, r, _ => add8 l r false
  | .ADC, l, r, c => add8 l r c
  | .SUB, l, r, _ => sub8 l r false
  | .SBC, l, r, c => sub8 l r c
  | .AND, l, r, _ => and8 l r
  | .XOR, l, r, _ => xor8 l r
  | .OR, l, r, _ => or8 l r
  | .CP, l, r, _ => sub8 l r false

/-- The flag routing of each two-operand operation on A (R250 to R264, R290 to R298). -/
def aluRouting : AluOp → Routing
  | .ADD => routeAdd
  | .ADC => routeAdd
  | .SUB => routeSub
  | .SBC => routeSub
  | .AND => routeAll
  | .XOR => routeAll
  | .OR => routeAll
  | .CP => routeSub

/-- The primitive of each prefixed rotate, shift or swap (R304 to R319); `c` is F.C. -/
def rotResult : RotOp → Byte → Bool → AluResult 8
  | .RLC, v, _ => rotate8 .left v
  | .RRC, v, _ => rotate8 .right v
  | .RL, v, c => rotateC8 .left v c
  | .RR, v, c => rotateC8 .right v c
  | .SLA, v, _ => shiftLeft8 v
  | .SRA, v, _ => shiftRightA8 v
  | .SWAP, v, _ => swap8 v
  | .SRL, v, _ => shiftRightL8 v

/-- The flag routing of each prefixed rotate, shift or swap (R304 to R319). -/
def rotRouting : RotOp → Routing
  | .RLC => routeRot
  | .RRC => routeRot
  | .RL => routeRot
  | .RR => routeRot
  | .SLA => routeRot
  | .SRA => routeRot
  | .SWAP => routeSwap
  | .SRL => routeRot

end Sys2Proof.Machine
end

