-- ==== Sys2Proof/Machine/Operands.lean ====
section
/-! DEFINITION. Operands: the register file by tag (10_state.md R20 to R24), pairs, flags, conditions, and the
memory operands' addresses (30_encoding.md R125 to R130). -/

namespace Sys2Proof.Machine

/-- R21: the register tags. -/
inductive Reg where
  | A | F | B | C | D | E | H | L
deriving DecidableEq, Repr

/-- R21: the stable integer projection of the tags; no instruction encodes it. -/
def Reg.index : Reg → Nat
  | .A => 0
  | .F => 1
  | .B => 2
  | .C => 3
  | .D => 4
  | .E => 5
  | .H => 6
  | .L => 7

/-- R10: `r8[t]`. -/
def Regs.get (g : Regs) : Reg → Byte
  | .A => g.a
  | .F => g.f
  | .B => g.b
  | .C => g.c
  | .D => g.d
  | .E => g.e
  | .H => g.h
  | .L => g.l

/-- R10: `r8[t] <- v`. -/
def Regs.set (g : Regs) (t : Reg) (v : Byte) : Regs :=
  match t with
  | .A => { g with a := v }
  | .F => { g with f := v }
  | .B => { g with b := v }
  | .C => { g with c := v }
  | .D => { g with d := v }
  | .E => { g with e := v }
  | .H => { g with h := v }
  | .L => { g with l := v }

/-- R22, R125: the tag of a register operand; F is none. -/
def regOf : R8 → Reg
  | .B => .B
  | .C => .C
  | .D => .D
  | .E => .E
  | .H => .H
  | .L => .L
  | .A => .A

/-- A register operand's value. -/
def State.r8 (s : State) (r : R8) : Byte := s.regs.get (regOf r)

/-- Writing a register operand. -/
def State.setR8 (s : State) (r : R8) (v : Byte) : State := { s with regs := s.regs.set (regOf r) v }

/-- R23: the pair HL. -/
def State.hl (s : State) : Word := make16 s.regs.h s.regs.l

/-- R23: writing the pair HL. -/
def State.setHl (s : State) (v : Word) : State :=
  { s with regs := { s.regs with h := highByte v, l := lowByte v } }

/-- R23, R126: a pair operand's value, with SP as the fourth. -/
def State.r16 (s : State) : R16 → Word
  | .BC => make16 s.regs.b s.regs.c
  | .DE => make16 s.regs.d s.regs.e
  | .HL => s.hl
  | .SP => s.sp

/-- R23, R126: writing a pair operand, with SP as the fourth. -/
def State.setR16 (s : State) (p : R16) (v : Word) : State :=
  match p with
  | .BC => { s with regs := { s.regs with b := highByte v, c := lowByte v } }
  | .DE => { s with regs := { s.regs with d := highByte v, e := lowByte v } }
  | .HL => s.setHl v
  | .SP => { s with sp := v }

/-- R23, R126: a pair operand of `PUSH`, with AF as the fourth. -/
def State.pair (s : State) : R16S → Word
  | .BC => make16 s.regs.b s.regs.c
  | .DE => make16 s.regs.d s.regs.e
  | .HL => s.hl
  | .AF => make16 s.regs.a s.regs.f

/-- R23, R24, R126: a pair operand of `POP`: F's low nibble is forced to 0. -/
def State.setPair (s : State) (p : R16S) (v : Word) : State :=
  match p with
  | .BC => { s with regs := { s.regs with b := highByte v, c := lowByte v } }
  | .DE => { s with regs := { s.regs with d := highByte v, e := lowByte v } }
  | .HL => s.setHl v
  | .AF => { s with regs := { s.regs with a := highByte v, f := lowByte v &&& 0xF0#8 } }

/-- R24: F.Z. -/
def State.flagZ (s : State) : Bool := s.regs.f.getLsbD 7
/-- R24: F.N. -/
def State.flagN (s : State) : Bool := s.regs.f.getLsbD 6
/-- R24: F.H. -/
def State.flagH (s : State) : Bool := s.regs.f.getLsbD 5
/-- R24: F.C. -/
def State.flagC (s : State) : Bool := s.regs.f.getLsbD 4

/-- R127. -/
def State.cond (s : State) : Cond → Bool
  | .NZ => !s.flagZ
  | .Z => s.flagZ
  | .NC => !s.flagC
  | .C => s.flagC

/-- R176: the flags of an ALU result routed to F. -/
def State.route {w : Nat} (s : State) (ρ : Routing) (r : AluResult w) : State :=
  { s with regs := { s.regs with f := ρ.apply r s.regs.f } }

/-- R130: `0xFF00 + offset`. -/
def ioAddr (offset : Byte) : Word := 0xFF00#16 + offset.setWidth 16

/-- R215 to R222: the address of an accumulator load's or store's memory operand. -/
def State.indAddr (s : State) : Ind → Word
  | .BC => s.r16 .BC
  | .DE => s.r16 .DE
  | .HLinc => s.hl
  | .HLdec => s.hl

/-- R219 to R222: the update of HL by the `(HL+)` and `(HL-)` operands, `a` the address they used. -/
def State.indStep (s : State) (i : Ind) (a : Word) : State :=
  match i with
  | .BC => s
  | .DE => s
  | .HLinc => s.setHl (a + 1#16)
  | .HLdec => s.setHl (a - 1#16)

end Sys2Proof.Machine
end

