-- ==== Sys2Proof/Machine/Ops.lean ====
section
/-! DEFINITION. The shared operations: how an instruction ends (30_encoding.md R128, 60_exceptions.md R393), the
stack (41_loads.md R234), taking an interrupt (R392) and returning from one (R398), and the faults (R381). -/

namespace Sys2Proof.Machine

/-- R128, R393: the end of an instruction that starts in `s0`, at tick `s0.cycles`, and does not transfer control:
`pc <- npc`, `next <- c + cost`. The write of `pc` is the last one. -/
def State.retire (s0 : State) (length cost : Nat) (t : State) : State :=
  { t with pc := s0.pc + BitVec.ofNat 16 length, next := s0.cycles + cost }

/-- R128, R393: the end of an instruction that transfers control. -/
def State.transfer (s0 : State) (target : Word) (cost : Nat) (t : State) : State :=
  { t with pc := target, next := s0.cycles + cost }

/-- R234: `Push16(v)`: `sp` first, then the low byte, then the high byte. -/
def push16 (v : Word) (s : State) : State :=
  State.busWrite16 { s with sp := s.sp - 2#16 } (s.sp - 2#16) v

/-- R234: the word that `Pop16()` returns. -/
def poppedWord (s : State) : Word := s.busRead16 s.sp

/-- R234: what `Pop16()` leaves. -/
def dropWord (s : State) : State := { s with sp := s.sp + 2#16 }

/-- R392: the fixed vector of a line, `0x0040 + 8 * i`. -/
def vectorOf (i : Line) : Word := BitVec.ofNat 16 (0x40 + 8 * i.index)

/-- R392: `IME <- 0` and the line's pending bit cleared. -/
def acknowledge (i : Line) (s : State) : State :=
  { s with ime := false, iflag := s.iflag &&& ~~~ mask 8 i.index }

/-- R392: taking an interrupt in tick `s.cycles`, in the order of the rule's five writes. -/
def dispatch (i : Line) (s : State) : State :=
  s.transfer (vectorOf i) 5 (push16 s.pc (acknowledge i s))

/-- R349, R398: the return from an interrupt: `pc <- Pop16(); IME <- 1`, and nothing else. -/
def returnFromInterrupt (s : State) : State :=
  s.transfer (poppedWord s) 4 { dropWord s with ime := true }

/-- R381: the machine that a fault raised in the CPU step leaves: `s` with the fault recorded, for good. -/
def State.faulted (f : Fault) (s : State) : State := { s with fault := some f }

end Sys2Proof.Machine
end

