-- ==== Sys2Proof/Machine/Control.lean ====
section
/-! DEFINITION. Jumps, calls, returns and restarts (46_control.md R340 to R350). -/

namespace Sys2Proof.Machine

/-- R340. -/
def opJp (nn : Word) (s : State) : State := s.transfer nn 4 s

/-- R341. -/
def opJpCond (c : Cond) (nn : Word) (s : State) : State :=
  if s.cond c then s.transfer nn 4 s else s.retire 3 3 s

/-- R342: no memory is read. -/
def opJpHl (s : State) : State := s.transfer s.hl 1 s

/-- R343: the offset is relative to `npc`. -/
def relTarget (s : State) (e : Byte) : Word := s.pc + 2#16 + sext16 e

/-- R343. -/
def opJr (e : Byte) (s : State) : State := s.transfer (relTarget s e) 3 s

/-- R344. -/
def opJrCond (c : Cond) (e : Byte) (s : State) : State :=
  if s.cond c then s.transfer (relTarget s e) 3 s else s.retire 2 2 s

/-- R345: the return address is `npc`. -/
def opCall (nn : Word) (s : State) : State := s.transfer nn 6 (push16 (s.pc + 3#16) s)

/-- R346: a false condition pushes nothing. -/
def opCallCond (c : Cond) (nn : Word) (s : State) : State :=
  if s.cond c then s.transfer nn 6 (push16 (s.pc + 3#16) s) else s.retire 3 3 s

/-- R347. -/
def opRet (s : State) : State := s.transfer (poppedWord s) 4 (dropWord s)

/-- R348: a false condition does not touch the stack. -/
def opRetCond (c : Cond) (s : State) : State :=
  if s.cond c then s.transfer (poppedWord s) 5 (dropWord s) else s.retire 1 2 s

/-- R350. -/
def opRst (t : Field3) (s : State) : State :=
  s.transfer (BitVec.ofNat 16 (8 * t.val)) 4 (push16 (s.pc + 1#16) s)

/-- R343. -/
def execJR_e8 (e : Byte) (s : State) : Host.Outcome State Fault Refusal :=
  .next (opJr e s)
/-- R344. -/
def execJR_NZ_e8 (e : Byte) (s : State) : Host.Outcome State Fault Refusal :=
  .next (opJrCond .NZ e s)
/-- R344. -/
def execJR_Z_e8 (e : Byte) (s : State) : Host.Outcome State Fault Refusal :=
  .next (opJrCond .Z e s)
/-- R344. -/
def execJR_NC_e8 (e : Byte) (s : State) : Host.Outcome State Fault Refusal :=
  .next (opJrCond .NC e s)
/-- R344. -/
def execJR_C_e8 (e : Byte) (s : State) : Host.Outcome State Fault Refusal :=
  .next (opJrCond .C e s)
/-- R348. -/
def execRET_NZ (s : State) : Host.Outcome State Fault Refusal :=
  .next (opRetCond .NZ s)
/-- R341. -/
def execJP_NZ_n16 (n : Word) (s : State) : Host.Outcome State Fault Refusal :=
  .next (opJpCond .NZ n s)
/-- R340. -/
def execJP_n16 (n : Word) (s : State) : Host.Outcome State Fault Refusal :=
  .next (opJp n s)
/-- R346. -/
def execCALL_NZ_n16 (n : Word) (s : State) : Host.Outcome State Fault Refusal :=
  .next (opCallCond .NZ n s)
/-- R350. -/
def execRST_00h (s : State) : Host.Outcome State Fault Refusal :=
  .next (opRst .f0 s)
/-- R348. -/
def execRET_Z (s : State) : Host.Outcome State Fault Refusal :=
  .next (opRetCond .Z s)
/-- R347. -/
def execRET (s : State) : Host.Outcome State Fault Refusal :=
  .next (opRet s)
/-- R341. -/
def execJP_Z_n16 (n : Word) (s : State) : Host.Outcome State Fault Refusal :=
  .next (opJpCond .Z n s)
/-- R346. -/
def execCALL_Z_n16 (n : Word) (s : State) : Host.Outcome State Fault Refusal :=
  .next (opCallCond .Z n s)
/-- R345. -/
def execCALL_n16 (n : Word) (s : State) : Host.Outcome State Fault Refusal :=
  .next (opCall n s)
/-- R350. -/
def execRST_08h (s : State) : Host.Outcome State Fault Refusal :=
  .next (opRst .f1 s)
/-- R348. -/
def execRET_NC (s : State) : Host.Outcome State Fault Refusal :=
  .next (opRetCond .NC s)
/-- R341. -/
def execJP_NC_n16 (n : Word) (s : State) : Host.Outcome State Fault Refusal :=
  .next (opJpCond .NC n s)
/-- R346. -/
def execCALL_NC_n16 (n : Word) (s : State) : Host.Outcome State Fault Refusal :=
  .next (opCallCond .NC n s)
/-- R350. -/
def execRST_10h (s : State) : Host.Outcome State Fault Refusal :=
  .next (opRst .f2 s)
/-- R348. -/
def execRET_C (s : State) : Host.Outcome State Fault Refusal :=
  .next (opRetCond .C s)
/-- R349. -/
def execRETI (s : State) : Host.Outcome State Fault Refusal :=
  .next (returnFromInterrupt s)
/-- R341. -/
def execJP_C_n16 (n : Word) (s : State) : Host.Outcome State Fault Refusal :=
  .next (opJpCond .C n s)
/-- R346. -/
def execCALL_C_n16 (n : Word) (s : State) : Host.Outcome State Fault Refusal :=
  .next (opCallCond .C n s)
/-- R350. -/
def execRST_18h (s : State) : Host.Outcome State Fault Refusal :=
  .next (opRst .f3 s)
/-- R350. -/
def execRST_20h (s : State) : Host.Outcome State Fault Refusal :=
  .next (opRst .f4 s)
/-- R342. -/
def execJP_HL (s : State) : Host.Outcome State Fault Refusal :=
  .next (opJpHl s)
/-- R350. -/
def execRST_28h (s : State) : Host.Outcome State Fault Refusal :=
  .next (opRst .f5 s)
/-- R350. -/
def execRST_30h (s : State) : Host.Outcome State Fault Refusal :=
  .next (opRst .f6 s)
/-- R350. -/
def execRST_38h (s : State) : Host.Outcome State Fault Refusal :=
  .next (opRst .f7 s)

end Sys2Proof.Machine
end

