-- ==== Sys2Proof/Machine/Loads.lean ====
section
/-! DEFINITION. Loads, stores, push and pop (41_loads.md R210 to R234). -/

namespace Sys2Proof.Machine

/-- R210. -/
def opLdRegReg (d r : R8) (s : State) : State := s.retire 1 1 (s.setR8 d (s.r8 r))

/-- R211. -/
def opLdRegImm (d : R8) (n : Byte) (s : State) : State := s.retire 2 2 (s.setR8 d n)

/-- R212: the address is the old HL. -/
def opLdRegHl (d : R8) (s : State) : State := s.retire 1 2 (s.setR8 d (s.busRead s.hl))

/-- R213. -/
def opLdHlReg (r : R8) (s : State) : State := s.retire 1 2 (s.busWrite s.hl (s.r8 r))

/-- R214. -/
def opLdHlImm (n : Byte) (s : State) : State := s.retire 2 3 (s.busWrite s.hl n)

/-- R215, R216, R219, R220: load A, then the operand's update of HL. -/
def opLdAInd (i : Ind) (s : State) : State :=
  s.retire 1 2 ((s.setR8 .A (s.busRead (s.indAddr i))).indStep i (s.indAddr i))

/-- R217, R218, R221, R222: store A, then the operand's update of HL. -/
def opLdIndA (i : Ind) (s : State) : State :=
  s.retire 1 2 ((s.busWrite (s.indAddr i) (s.r8 .A)).indStep i (s.indAddr i))

/-- R223. -/
def opLdhLoad (n : Byte) (s : State) : State := s.retire 2 3 (s.setR8 .A (s.busRead (ioAddr n)))

/-- R224. -/
def opLdhStore (n : Byte) (s : State) : State := s.retire 2 3 (s.busWrite (ioAddr n) (s.r8 .A))

/-- R225. -/
def opLdCLoad (s : State) : State := s.retire 1 2 (s.setR8 .A (s.busRead (ioAddr (s.r8 .C))))

/-- R226. -/
def opLdCStore (s : State) : State := s.retire 1 2 (s.busWrite (ioAddr (s.r8 .C)) (s.r8 .A))

/-- R227. -/
def opLdAbsLoad (nn : Word) (s : State) : State := s.retire 3 4 (s.setR8 .A (s.busRead nn))

/-- R228. -/
def opLdAbsStore (nn : Word) (s : State) : State := s.retire 3 4 (s.busWrite nn (s.r8 .A))

/-- R229. -/
def opLdPairImm (p : R16) (nn : Word) (s : State) : State := s.retire 3 3 (s.setR16 p nn)

/-- R230. -/
def opLdAbsSp (nn : Word) (s : State) : State := s.retire 3 5 (s.busWrite16 nn s.sp)

/-- R231. -/
def opLdSpHl (s : State) : State := s.retire 1 2 { s with sp := s.hl }

/-- R232. -/
def opPush (p : R16S) (s : State) : State := s.retire 1 4 (push16 (s.pair p) s)

/-- R233. -/
def opPop (p : R16S) (s : State) : State := s.retire 1 3 ((dropWord s).setPair p (poppedWord s))

/-- R229. -/
def execLD_BC_n16 (n : Word) (s : State) : Host.Outcome State Fault Refusal :=
  .next (opLdPairImm .BC n s)
/-- R217. -/
def execLD_atBC_A (s : State) : Host.Outcome State Fault Refusal :=
  .next (opLdIndA .BC s)
/-- R211. -/
def execLD_B_n8 (n : Byte) (s : State) : Host.Outcome State Fault Refusal :=
  .next (opLdRegImm .B n s)
/-- R230. -/
def execLD_atn16_SP (n : Word) (s : State) : Host.Outcome State Fault Refusal :=
  .next (opLdAbsSp n s)
/-- R215. -/
def execLD_A_atBC (s : State) : Host.Outcome State Fault Refusal :=
  .next (opLdAInd .BC s)
/-- R211. -/
def execLD_C_n8 (n : Byte) (s : State) : Host.Outcome State Fault Refusal :=
  .next (opLdRegImm .C n s)
/-- R229. -/
def execLD_DE_n16 (n : Word) (s : State) : Host.Outcome State Fault Refusal :=
  .next (opLdPairImm .DE n s)
/-- R218. -/
def execLD_atDE_A (s : State) : Host.Outcome State Fault Refusal :=
  .next (opLdIndA .DE s)
/-- R211. -/
def execLD_D_n8 (n : Byte) (s : State) : Host.Outcome State Fault Refusal :=
  .next (opLdRegImm .D n s)
/-- R216. -/
def execLD_A_atDE (s : State) : Host.Outcome State Fault Refusal :=
  .next (opLdAInd .DE s)
/-- R211. -/
def execLD_E_n8 (n : Byte) (s : State) : Host.Outcome State Fault Refusal :=
  .next (opLdRegImm .E n s)
/-- R229. -/
def execLD_HL_n16 (n : Word) (s : State) : Host.Outcome State Fault Refusal :=
  .next (opLdPairImm .HL n s)
/-- R221. -/
def execLD_atHLinc_A (s : State) : Host.Outcome State Fault Refusal :=
  .next (opLdIndA .HLinc s)
/-- R211. -/
def execLD_H_n8 (n : Byte) (s : State) : Host.Outcome State Fault Refusal :=
  .next (opLdRegImm .H n s)
/-- R219. -/
def execLD_A_atHLinc (s : State) : Host.Outcome State Fault Refusal :=
  .next (opLdAInd .HLinc s)
/-- R211. -/
def execLD_L_n8 (n : Byte) (s : State) : Host.Outcome State Fault Refusal :=
  .next (opLdRegImm .L n s)
/-- R229. -/
def execLD_SP_n16 (n : Word) (s : State) : Host.Outcome State Fault Refusal :=
  .next (opLdPairImm .SP n s)
/-- R222. -/
def execLD_atHLdec_A (s : State) : Host.Outcome State Fault Refusal :=
  .next (opLdIndA .HLdec s)
/-- R214. -/
def execLD_atHL_n8 (n : Byte) (s : State) : Host.Outcome State Fault Refusal :=
  .next (opLdHlImm n s)
/-- R220. -/
def execLD_A_atHLdec (s : State) : Host.Outcome State Fault Refusal :=
  .next (opLdAInd .HLdec s)
/-- R211. -/
def execLD_A_n8 (n : Byte) (s : State) : Host.Outcome State Fault Refusal :=
  .next (opLdRegImm .A n s)
/-- R210. -/
def execLD_B_B (s : State) : Host.Outcome State Fault Refusal :=
  .next (opLdRegReg .B .B s)
/-- R210. -/
def execLD_B_C (s : State) : Host.Outcome State Fault Refusal :=
  .next (opLdRegReg .B .C s)
/-- R210. -/
def execLD_B_D (s : State) : Host.Outcome State Fault Refusal :=
  .next (opLdRegReg .B .D s)
/-- R210. -/
def execLD_B_E (s : State) : Host.Outcome State Fault Refusal :=
  .next (opLdRegReg .B .E s)
/-- R210. -/
def execLD_B_H (s : State) : Host.Outcome State Fault Refusal :=
  .next (opLdRegReg .B .H s)
/-- R210. -/
def execLD_B_L (s : State) : Host.Outcome State Fault Refusal :=
  .next (opLdRegReg .B .L s)
/-- R212. -/
def execLD_B_atHL (s : State) : Host.Outcome State Fault Refusal :=
  .next (opLdRegHl .B s)
/-- R210. -/
def execLD_B_A (s : State) : Host.Outcome State Fault Refusal :=
  .next (opLdRegReg .B .A s)
/-- R210. -/
def execLD_C_B (s : State) : Host.Outcome State Fault Refusal :=
  .next (opLdRegReg .C .B s)
/-- R210. -/
def execLD_C_C (s : State) : Host.Outcome State Fault Refusal :=
  .next (opLdRegReg .C .C s)
/-- R210. -/
def execLD_C_D (s : State) : Host.Outcome State Fault Refusal :=
  .next (opLdRegReg .C .D s)
/-- R210. -/
def execLD_C_E (s : State) : Host.Outcome State Fault Refusal :=
  .next (opLdRegReg .C .E s)
/-- R210. -/
def execLD_C_H (s : State) : Host.Outcome State Fault Refusal :=
  .next (opLdRegReg .C .H s)
/-- R210. -/
def execLD_C_L (s : State) : Host.Outcome State Fault Refusal :=
  .next (opLdRegReg .C .L s)
/-- R212. -/
def execLD_C_atHL (s : State) : Host.Outcome State Fault Refusal :=
  .next (opLdRegHl .C s)
/-- R210. -/
def execLD_C_A (s : State) : Host.Outcome State Fault Refusal :=
  .next (opLdRegReg .C .A s)
/-- R210. -/
def execLD_D_B (s : State) : Host.Outcome State Fault Refusal :=
  .next (opLdRegReg .D .B s)
/-- R210. -/
def execLD_D_C (s : State) : Host.Outcome State Fault Refusal :=
  .next (opLdRegReg .D .C s)
/-- R210. -/
def execLD_D_D (s : State) : Host.Outcome State Fault Refusal :=
  .next (opLdRegReg .D .D s)
/-- R210. -/
def execLD_D_E (s : State) : Host.Outcome State Fault Refusal :=
  .next (opLdRegReg .D .E s)
/-- R210. -/
def execLD_D_H (s : State) : Host.Outcome State Fault Refusal :=
  .next (opLdRegReg .D .H s)
/-- R210. -/
def execLD_D_L (s : State) : Host.Outcome State Fault Refusal :=
  .next (opLdRegReg .D .L s)
/-- R212. -/
def execLD_D_atHL (s : State) : Host.Outcome State Fault Refusal :=
  .next (opLdRegHl .D s)
/-- R210. -/
def execLD_D_A (s : State) : Host.Outcome State Fault Refusal :=
  .next (opLdRegReg .D .A s)
/-- R210. -/
def execLD_E_B (s : State) : Host.Outcome State Fault Refusal :=
  .next (opLdRegReg .E .B s)
/-- R210. -/
def execLD_E_C (s : State) : Host.Outcome State Fault Refusal :=
  .next (opLdRegReg .E .C s)
/-- R210. -/
def execLD_E_D (s : State) : Host.Outcome State Fault Refusal :=
  .next (opLdRegReg .E .D s)
/-- R210. -/
def execLD_E_E (s : State) : Host.Outcome State Fault Refusal :=
  .next (opLdRegReg .E .E s)
/-- R210. -/
def execLD_E_H (s : State) : Host.Outcome State Fault Refusal :=
  .next (opLdRegReg .E .H s)
/-- R210. -/
def execLD_E_L (s : State) : Host.Outcome State Fault Refusal :=
  .next (opLdRegReg .E .L s)
/-- R212. -/
def execLD_E_atHL (s : State) : Host.Outcome State Fault Refusal :=
  .next (opLdRegHl .E s)
/-- R210. -/
def execLD_E_A (s : State) : Host.Outcome State Fault Refusal :=
  .next (opLdRegReg .E .A s)
/-- R210. -/
def execLD_H_B (s : State) : Host.Outcome State Fault Refusal :=
  .next (opLdRegReg .H .B s)
/-- R210. -/
def execLD_H_C (s : State) : Host.Outcome State Fault Refusal :=
  .next (opLdRegReg .H .C s)
/-- R210. -/
def execLD_H_D (s : State) : Host.Outcome State Fault Refusal :=
  .next (opLdRegReg .H .D s)
/-- R210. -/
def execLD_H_E (s : State) : Host.Outcome State Fault Refusal :=
  .next (opLdRegReg .H .E s)
/-- R210. -/
def execLD_H_H (s : State) : Host.Outcome State Fault Refusal :=
  .next (opLdRegReg .H .H s)
/-- R210. -/
def execLD_H_L (s : State) : Host.Outcome State Fault Refusal :=
  .next (opLdRegReg .H .L s)
/-- R212. -/
def execLD_H_atHL (s : State) : Host.Outcome State Fault Refusal :=
  .next (opLdRegHl .H s)
/-- R210. -/
def execLD_H_A (s : State) : Host.Outcome State Fault Refusal :=
  .next (opLdRegReg .H .A s)
/-- R210. -/
def execLD_L_B (s : State) : Host.Outcome State Fault Refusal :=
  .next (opLdRegReg .L .B s)
/-- R210. -/
def execLD_L_C (s : State) : Host.Outcome State Fault Refusal :=
  .next (opLdRegReg .L .C s)
/-- R210. -/
def execLD_L_D (s : State) : Host.Outcome State Fault Refusal :=
  .next (opLdRegReg .L .D s)
/-- R210. -/
def execLD_L_E (s : State) : Host.Outcome State Fault Refusal :=
  .next (opLdRegReg .L .E s)
/-- R210. -/
def execLD_L_H (s : State) : Host.Outcome State Fault Refusal :=
  .next (opLdRegReg .L .H s)
/-- R210. -/
def execLD_L_L (s : State) : Host.Outcome State Fault Refusal :=
  .next (opLdRegReg .L .L s)
/-- R212. -/
def execLD_L_atHL (s : State) : Host.Outcome State Fault Refusal :=
  .next (opLdRegHl .L s)
/-- R210. -/
def execLD_L_A (s : State) : Host.Outcome State Fault Refusal :=
  .next (opLdRegReg .L .A s)
/-- R213. -/
def execLD_atHL_B (s : State) : Host.Outcome State Fault Refusal :=
  .next (opLdHlReg .B s)
/-- R213. -/
def execLD_atHL_C (s : State) : Host.Outcome State Fault Refusal :=
  .next (opLdHlReg .C s)
/-- R213. -/
def execLD_atHL_D (s : State) : Host.Outcome State Fault Refusal :=
  .next (opLdHlReg .D s)
/-- R213. -/
def execLD_atHL_E (s : State) : Host.Outcome State Fault Refusal :=
  .next (opLdHlReg .E s)
/-- R213. -/
def execLD_atHL_H (s : State) : Host.Outcome State Fault Refusal :=
  .next (opLdHlReg .H s)
/-- R213. -/
def execLD_atHL_L (s : State) : Host.Outcome State Fault Refusal :=
  .next (opLdHlReg .L s)
/-- R213. -/
def execLD_atHL_A (s : State) : Host.Outcome State Fault Refusal :=
  .next (opLdHlReg .A s)
/-- R210. -/
def execLD_A_B (s : State) : Host.Outcome State Fault Refusal :=
  .next (opLdRegReg .A .B s)
/-- R210. -/
def execLD_A_C (s : State) : Host.Outcome State Fault Refusal :=
  .next (opLdRegReg .A .C s)
/-- R210. -/
def execLD_A_D (s : State) : Host.Outcome State Fault Refusal :=
  .next (opLdRegReg .A .D s)
/-- R210. -/
def execLD_A_E (s : State) : Host.Outcome State Fault Refusal :=
  .next (opLdRegReg .A .E s)
/-- R210. -/
def execLD_A_H (s : State) : Host.Outcome State Fault Refusal :=
  .next (opLdRegReg .A .H s)
/-- R210. -/
def execLD_A_L (s : State) : Host.Outcome State Fault Refusal :=
  .next (opLdRegReg .A .L s)
/-- R212. -/
def execLD_A_atHL (s : State) : Host.Outcome State Fault Refusal :=
  .next (opLdRegHl .A s)
/-- R210. -/
def execLD_A_A (s : State) : Host.Outcome State Fault Refusal :=
  .next (opLdRegReg .A .A s)
/-- R233. -/
def execPOP_BC (s : State) : Host.Outcome State Fault Refusal :=
  .next (opPop .BC s)
/-- R232. -/
def execPUSH_BC (s : State) : Host.Outcome State Fault Refusal :=
  .next (opPush .BC s)
/-- R233. -/
def execPOP_DE (s : State) : Host.Outcome State Fault Refusal :=
  .next (opPop .DE s)
/-- R232. -/
def execPUSH_DE (s : State) : Host.Outcome State Fault Refusal :=
  .next (opPush .DE s)
/-- R224. -/
def execLDH_atn8_A (n : Byte) (s : State) : Host.Outcome State Fault Refusal :=
  .next (opLdhStore n s)
/-- R233. -/
def execPOP_HL (s : State) : Host.Outcome State Fault Refusal :=
  .next (opPop .HL s)
/-- R226. -/
def execLD_atC_A (s : State) : Host.Outcome State Fault Refusal :=
  .next (opLdCStore s)
/-- R232. -/
def execPUSH_HL (s : State) : Host.Outcome State Fault Refusal :=
  .next (opPush .HL s)
/-- R228. -/
def execLD_atn16_A (n : Word) (s : State) : Host.Outcome State Fault Refusal :=
  .next (opLdAbsStore n s)
/-- R223. -/
def execLDH_A_atn8 (n : Byte) (s : State) : Host.Outcome State Fault Refusal :=
  .next (opLdhLoad n s)
/-- R233. -/
def execPOP_AF (s : State) : Host.Outcome State Fault Refusal :=
  .next (opPop .AF s)
/-- R225. -/
def execLD_A_atC (s : State) : Host.Outcome State Fault Refusal :=
  .next (opLdCLoad s)
/-- R232. -/
def execPUSH_AF (s : State) : Host.Outcome State Fault Refusal :=
  .next (opPush .AF s)
/-- R231. -/
def execLD_SP_HL (s : State) : Host.Outcome State Fault Refusal :=
  .next (opLdSpHl s)
/-- R227. -/
def execLD_A_atn16 (n : Word) (s : State) : Host.Outcome State Fault Refusal :=
  .next (opLdAbsLoad n s)

end Sys2Proof.Machine
end

