-- ==== Sys2Proof/Machine/Arith.lean ====
section
/-! DEFINITION. Arithmetic (42_arith.md R250 to R273), and the two-operand operation on A that 43_logic.md shares. -/

namespace Sys2Proof.Machine

/-- R250 to R264, R290 to R298: the operation on A and an operand; `CP` discards the value. -/
def aluA (op : AluOp) (v : Byte) (s : State) : State :=
  let r := aluResult op (s.r8 .A) v s.flagC
  match op with
  | .CP => s.route (aluRouting op) r
  | .ADD => (s.setR8 .A r.v).route (aluRouting op) r
  | .ADC => (s.setR8 .A r.v).route (aluRouting op) r
  | .SUB => (s.setR8 .A r.v).route (aluRouting op) r
  | .SBC => (s.setR8 .A r.v).route (aluRouting op) r
  | .AND => (s.setR8 .A r.v).route (aluRouting op) r
  | .XOR => (s.setR8 .A r.v).route (aluRouting op) r
  | .OR => (s.setR8 .A r.v).route (aluRouting op) r

/-- R250, R253, R256, R259, R262, R290, R293, R296. -/
def opAluReg (op : AluOp) (r : R8) (s : State) : State := s.retire 1 1 (aluA op (s.r8 r) s)

/-- R251, R254, R257, R260, R263, R291, R294, R297. -/
def opAluImm (op : AluOp) (n : Byte) (s : State) : State := s.retire 2 2 (aluA op n s)

/-- R252, R255, R258, R261, R264, R292, R295, R298. -/
def opAluHl (op : AluOp) (s : State) : State := s.retire 1 2 (aluA op (s.busRead s.hl) s)

/-- R265. -/
def opIncReg (r : R8) (s : State) : State :=
  let x := add8 (s.r8 r) 1#8 false
  s.retire 1 1 ((s.setR8 r x.v).route routeInc x)

/-- R267. -/
def opDecReg (r : R8) (s : State) : State :=
  let x := sub8 (s.r8 r) 1#8 false
  s.retire 1 1 ((s.setR8 r x.v).route routeDec x)

/-- R266: one read, then one write. -/
def opIncHl (s : State) : State :=
  let x := add8 (s.busRead s.hl) 1#8 false
  s.retire 1 3 ((s.busWrite s.hl x.v).route routeInc x)

/-- R268: one read, then one write. -/
def opDecHl (s : State) : State :=
  let x := sub8 (s.busRead s.hl) 1#8 false
  s.retire 1 3 ((s.busWrite s.hl x.v).route routeDec x)

/-- R269. -/
def opIncPair (p : R16) (s : State) : State := s.retire 1 2 (s.setR16 p (s.r16 p + 1#16))

/-- R270. -/
def opDecPair (p : R16) (s : State) : State := s.retire 1 2 (s.setR16 p (s.r16 p - 1#16))

/-- R271. -/
def opAddHl (p : R16) (s : State) : State :=
  let x := add16H s.hl (s.r16 p)
  s.retire 1 2 ((s.setHl x.v).route routeAddHl x)

/-- R272. -/
def opAddSp (e : Byte) (s : State) : State :=
  let x := add16L s.sp (sext16 e)
  s.retire 2 4 (State.route { s with sp := x.v } routeAddSp x)

/-- R273: `sp` is not changed. -/
def opLdHlSp (e : Byte) (s : State) : State :=
  let x := add16L s.sp (sext16 e)
  s.retire 2 3 ((s.setHl x.v).route routeAddSp x)

/-- R269. -/
def execINC_BC (s : State) : Host.Outcome State Fault Refusal :=
  .next (opIncPair .BC s)
/-- R265. -/
def execINC_B (s : State) : Host.Outcome State Fault Refusal :=
  .next (opIncReg .B s)
/-- R267. -/
def execDEC_B (s : State) : Host.Outcome State Fault Refusal :=
  .next (opDecReg .B s)
/-- R271. -/
def execADD_HL_BC (s : State) : Host.Outcome State Fault Refusal :=
  .next (opAddHl .BC s)
/-- R270. -/
def execDEC_BC (s : State) : Host.Outcome State Fault Refusal :=
  .next (opDecPair .BC s)
/-- R265. -/
def execINC_C (s : State) : Host.Outcome State Fault Refusal :=
  .next (opIncReg .C s)
/-- R267. -/
def execDEC_C (s : State) : Host.Outcome State Fault Refusal :=
  .next (opDecReg .C s)
/-- R269. -/
def execINC_DE (s : State) : Host.Outcome State Fault Refusal :=
  .next (opIncPair .DE s)
/-- R265. -/
def execINC_D (s : State) : Host.Outcome State Fault Refusal :=
  .next (opIncReg .D s)
/-- R267. -/
def execDEC_D (s : State) : Host.Outcome State Fault Refusal :=
  .next (opDecReg .D s)
/-- R271. -/
def execADD_HL_DE (s : State) : Host.Outcome State Fault Refusal :=
  .next (opAddHl .DE s)
/-- R270. -/
def execDEC_DE (s : State) : Host.Outcome State Fault Refusal :=
  .next (opDecPair .DE s)
/-- R265. -/
def execINC_E (s : State) : Host.Outcome State Fault Refusal :=
  .next (opIncReg .E s)
/-- R267. -/
def execDEC_E (s : State) : Host.Outcome State Fault Refusal :=
  .next (opDecReg .E s)
/-- R269. -/
def execINC_HL (s : State) : Host.Outcome State Fault Refusal :=
  .next (opIncPair .HL s)
/-- R265. -/
def execINC_H (s : State) : Host.Outcome State Fault Refusal :=
  .next (opIncReg .H s)
/-- R267. -/
def execDEC_H (s : State) : Host.Outcome State Fault Refusal :=
  .next (opDecReg .H s)
/-- R271. -/
def execADD_HL_HL (s : State) : Host.Outcome State Fault Refusal :=
  .next (opAddHl .HL s)
/-- R270. -/
def execDEC_HL (s : State) : Host.Outcome State Fault Refusal :=
  .next (opDecPair .HL s)
/-- R265. -/
def execINC_L (s : State) : Host.Outcome State Fault Refusal :=
  .next (opIncReg .L s)
/-- R267. -/
def execDEC_L (s : State) : Host.Outcome State Fault Refusal :=
  .next (opDecReg .L s)
/-- R269. -/
def execINC_SP (s : State) : Host.Outcome State Fault Refusal :=
  .next (opIncPair .SP s)
/-- R266. -/
def execINC_atHL (s : State) : Host.Outcome State Fault Refusal :=
  .next (opIncHl s)
/-- R268. -/
def execDEC_atHL (s : State) : Host.Outcome State Fault Refusal :=
  .next (opDecHl s)
/-- R271. -/
def execADD_HL_SP (s : State) : Host.Outcome State Fault Refusal :=
  .next (opAddHl .SP s)
/-- R270. -/
def execDEC_SP (s : State) : Host.Outcome State Fault Refusal :=
  .next (opDecPair .SP s)
/-- R265. -/
def execINC_A (s : State) : Host.Outcome State Fault Refusal :=
  .next (opIncReg .A s)
/-- R267. -/
def execDEC_A (s : State) : Host.Outcome State Fault Refusal :=
  .next (opDecReg .A s)
/-- R250. -/
def execADD_A_B (s : State) : Host.Outcome State Fault Refusal :=
  .next (opAluReg .ADD .B s)
/-- R250. -/
def execADD_A_C (s : State) : Host.Outcome State Fault Refusal :=
  .next (opAluReg .ADD .C s)
/-- R250. -/
def execADD_A_D (s : State) : Host.Outcome State Fault Refusal :=
  .next (opAluReg .ADD .D s)
/-- R250. -/
def execADD_A_E (s : State) : Host.Outcome State Fault Refusal :=
  .next (opAluReg .ADD .E s)
/-- R250. -/
def execADD_A_H (s : State) : Host.Outcome State Fault Refusal :=
  .next (opAluReg .ADD .H s)
/-- R250. -/
def execADD_A_L (s : State) : Host.Outcome State Fault Refusal :=
  .next (opAluReg .ADD .L s)
/-- R252. -/
def execADD_A_atHL (s : State) : Host.Outcome State Fault Refusal :=
  .next (opAluHl .ADD s)
/-- R250. -/
def execADD_A_A (s : State) : Host.Outcome State Fault Refusal :=
  .next (opAluReg .ADD .A s)
/-- R253. -/
def execADC_A_B (s : State) : Host.Outcome State Fault Refusal :=
  .next (opAluReg .ADC .B s)
/-- R253. -/
def execADC_A_C (s : State) : Host.Outcome State Fault Refusal :=
  .next (opAluReg .ADC .C s)
/-- R253. -/
def execADC_A_D (s : State) : Host.Outcome State Fault Refusal :=
  .next (opAluReg .ADC .D s)
/-- R253. -/
def execADC_A_E (s : State) : Host.Outcome State Fault Refusal :=
  .next (opAluReg .ADC .E s)
/-- R253. -/
def execADC_A_H (s : State) : Host.Outcome State Fault Refusal :=
  .next (opAluReg .ADC .H s)
/-- R253. -/
def execADC_A_L (s : State) : Host.Outcome State Fault Refusal :=
  .next (opAluReg .ADC .L s)
/-- R255. -/
def execADC_A_atHL (s : State) : Host.Outcome State Fault Refusal :=
  .next (opAluHl .ADC s)
/-- R253. -/
def execADC_A_A (s : State) : Host.Outcome State Fault Refusal :=
  .next (opAluReg .ADC .A s)
/-- R256. -/
def execSUB_B (s : State) : Host.Outcome State Fault Refusal :=
  .next (opAluReg .SUB .B s)
/-- R256. -/
def execSUB_C (s : State) : Host.Outcome State Fault Refusal :=
  .next (opAluReg .SUB .C s)
/-- R256. -/
def execSUB_D (s : State) : Host.Outcome State Fault Refusal :=
  .next (opAluReg .SUB .D s)
/-- R256. -/
def execSUB_E (s : State) : Host.Outcome State Fault Refusal :=
  .next (opAluReg .SUB .E s)
/-- R256. -/
def execSUB_H (s : State) : Host.Outcome State Fault Refusal :=
  .next (opAluReg .SUB .H s)
/-- R256. -/
def execSUB_L (s : State) : Host.Outcome State Fault Refusal :=
  .next (opAluReg .SUB .L s)
/-- R258. -/
def execSUB_atHL (s : State) : Host.Outcome State Fault Refusal :=
  .next (opAluHl .SUB s)
/-- R256. -/
def execSUB_A (s : State) : Host.Outcome State Fault Refusal :=
  .next (opAluReg .SUB .A s)
/-- R259. -/
def execSBC_A_B (s : State) : Host.Outcome State Fault Refusal :=
  .next (opAluReg .SBC .B s)
/-- R259. -/
def execSBC_A_C (s : State) : Host.Outcome State Fault Refusal :=
  .next (opAluReg .SBC .C s)
/-- R259. -/
def execSBC_A_D (s : State) : Host.Outcome State Fault Refusal :=
  .next (opAluReg .SBC .D s)
/-- R259. -/
def execSBC_A_E (s : State) : Host.Outcome State Fault Refusal :=
  .next (opAluReg .SBC .E s)
/-- R259. -/
def execSBC_A_H (s : State) : Host.Outcome State Fault Refusal :=
  .next (opAluReg .SBC .H s)
/-- R259. -/
def execSBC_A_L (s : State) : Host.Outcome State Fault Refusal :=
  .next (opAluReg .SBC .L s)
/-- R261. -/
def execSBC_A_atHL (s : State) : Host.Outcome State Fault Refusal :=
  .next (opAluHl .SBC s)
/-- R259. -/
def execSBC_A_A (s : State) : Host.Outcome State Fault Refusal :=
  .next (opAluReg .SBC .A s)
/-- R262. -/
def execCP_B (s : State) : Host.Outcome State Fault Refusal :=
  .next (opAluReg .CP .B s)
/-- R262. -/
def execCP_C (s : State) : Host.Outcome State Fault Refusal :=
  .next (opAluReg .CP .C s)
/-- R262. -/
def execCP_D (s : State) : Host.Outcome State Fault Refusal :=
  .next (opAluReg .CP .D s)
/-- R262. -/
def execCP_E (s : State) : Host.Outcome State Fault Refusal :=
  .next (opAluReg .CP .E s)
/-- R262. -/
def execCP_H (s : State) : Host.Outcome State Fault Refusal :=
  .next (opAluReg .CP .H s)
/-- R262. -/
def execCP_L (s : State) : Host.Outcome State Fault Refusal :=
  .next (opAluReg .CP .L s)
/-- R264. -/
def execCP_atHL (s : State) : Host.Outcome State Fault Refusal :=
  .next (opAluHl .CP s)
/-- R262. -/
def execCP_A (s : State) : Host.Outcome State Fault Refusal :=
  .next (opAluReg .CP .A s)
/-- R251. -/
def execADD_A_n8 (n : Byte) (s : State) : Host.Outcome State Fault Refusal :=
  .next (opAluImm .ADD n s)
/-- R254. -/
def execADC_A_n8 (n : Byte) (s : State) : Host.Outcome State Fault Refusal :=
  .next (opAluImm .ADC n s)
/-- R257. -/
def execSUB_n8 (n : Byte) (s : State) : Host.Outcome State Fault Refusal :=
  .next (opAluImm .SUB n s)
/-- R260. -/
def execSBC_A_n8 (n : Byte) (s : State) : Host.Outcome State Fault Refusal :=
  .next (opAluImm .SBC n s)
/-- R272. -/
def execADD_SP_e8 (e : Byte) (s : State) : Host.Outcome State Fault Refusal :=
  .next (opAddSp e s)
/-- R273. -/
def execLD_HL_SPe8 (e : Byte) (s : State) : Host.Outcome State Fault Refusal :=
  .next (opLdHlSp e s)
/-- R263. -/
def execCP_n8 (n : Byte) (s : State) : Host.Outcome State Fault Refusal :=
  .next (opAluImm .CP n s)

end Sys2Proof.Machine
end

