-- ==== Sys2Proof/Machine/Logic.lean ====
section
/-! DEFINITION. Logic (43_logic.md R290 to R299). -/

namespace Sys2Proof.Machine

/-- R299: `-11-`, Z and C kept. -/
def opCpl (s : State) : State :=
  s.retire 1 1 ((s.setR8 .A (complement8 (s.r8 .A))).route routeCpl (shifted (complement8 (s.r8 .A)) false))

/-- R299. -/
def execCPL (s : State) : Host.Outcome State Fault Refusal :=
  .next (opCpl s)
/-- R290. -/
def execAND_B (s : State) : Host.Outcome State Fault Refusal :=
  .next (opAluReg .AND .B s)
/-- R290. -/
def execAND_C (s : State) : Host.Outcome State Fault Refusal :=
  .next (opAluReg .AND .C s)
/-- R290. -/
def execAND_D (s : State) : Host.Outcome State Fault Refusal :=
  .next (opAluReg .AND .D s)
/-- R290. -/
def execAND_E (s : State) : Host.Outcome State Fault Refusal :=
  .next (opAluReg .AND .E s)
/-- R290. -/
def execAND_H (s : State) : Host.Outcome State Fault Refusal :=
  .next (opAluReg .AND .H s)
/-- R290. -/
def execAND_L (s : State) : Host.Outcome State Fault Refusal :=
  .next (opAluReg .AND .L s)
/-- R292. -/
def execAND_atHL (s : State) : Host.Outcome State Fault Refusal :=
  .next (opAluHl .AND s)
/-- R290. -/
def execAND_A (s : State) : Host.Outcome State Fault Refusal :=
  .next (opAluReg .AND .A s)
/-- R296. -/
def execXOR_B (s : State) : Host.Outcome State Fault Refusal :=
  .next (opAluReg .XOR .B s)
/-- R296. -/
def execXOR_C (s : State) : Host.Outcome State Fault Refusal :=
  .next (opAluReg .XOR .C s)
/-- R296. -/
def execXOR_D (s : State) : Host.Outcome State Fault Refusal :=
  .next (opAluReg .XOR .D s)
/-- R296. -/
def execXOR_E (s : State) : Host.Outcome State Fault Refusal :=
  .next (opAluReg .XOR .E s)
/-- R296. -/
def execXOR_H (s : State) : Host.Outcome State Fault Refusal :=
  .next (opAluReg .XOR .H s)
/-- R296. -/
def execXOR_L (s : State) : Host.Outcome State Fault Refusal :=
  .next (opAluReg .XOR .L s)
/-- R298. -/
def execXOR_atHL (s : State) : Host.Outcome State Fault Refusal :=
  .next (opAluHl .XOR s)
/-- R296. -/
def execXOR_A (s : State) : Host.Outcome State Fault Refusal :=
  .next (opAluReg .XOR .A s)
/-- R293. -/
def execOR_B (s : State) : Host.Outcome State Fault Refusal :=
  .next (opAluReg .OR .B s)
/-- R293. -/
def execOR_C (s : State) : Host.Outcome State Fault Refusal :=
  .next (opAluReg .OR .C s)
/-- R293. -/
def execOR_D (s : State) : Host.Outcome State Fault Refusal :=
  .next (opAluReg .OR .D s)
/-- R293. -/
def execOR_E (s : State) : Host.Outcome State Fault Refusal :=
  .next (opAluReg .OR .E s)
/-- R293. -/
def execOR_H (s : State) : Host.Outcome State Fault Refusal :=
  .next (opAluReg .OR .H s)
/-- R293. -/
def execOR_L (s : State) : Host.Outcome State Fault Refusal :=
  .next (opAluReg .OR .L s)
/-- R295. -/
def execOR_atHL (s : State) : Host.Outcome State Fault Refusal :=
  .next (opAluHl .OR s)
/-- R293. -/
def execOR_A (s : State) : Host.Outcome State Fault Refusal :=
  .next (opAluReg .OR .A s)
/-- R291. -/
def execAND_n8 (n : Byte) (s : State) : Host.Outcome State Fault Refusal :=
  .next (opAluImm .AND n s)
/-- R297. -/
def execXOR_n8 (n : Byte) (s : State) : Host.Outcome State Fault Refusal :=
  .next (opAluImm .XOR n s)
/-- R294. -/
def execOR_n8 (n : Byte) (s : State) : Host.Outcome State Fault Refusal :=
  .next (opAluImm .OR n s)

end Sys2Proof.Machine
end

