-- ==== Sys2Proof/Machine/Misc.lean ====
section
/-! DEFINITION. Interrupt control and miscellaneous (47_misc.md R360 to R368). The twelve faulting encodings are
decided at decode (R367, R368): they change nothing, and name the opcode's address. -/

namespace Sys2Proof.Machine

/-- R360. -/
def opNop (s : State) : State := s.retire 1 1 s

/-- R361. -/
def opDaa (s : State) : State :=
  let x := bcdAdjust (s.r8 .A) s.flagN s.flagH s.flagC
  s.retire 1 1 ((s.setR8 .A x.v).route routeDaa x)

/-- R362: `-001`. -/
def opScf (s : State) : State := s.retire 1 1 (s.route routeScf (shifted (s.r8 .A) true))

/-- R363: Z kept, N = H = 0, C inverted. -/
def opCcf (s : State) : State :=
  s.retire 1 1 { s with regs := { s.regs with f := packFlags s.flagZ false false (!s.flagC) } }

/-- R364: immediate. -/
def opDi (s : State) : State := s.retire 1 1 { s with ime := false }

/-- R365: immediate. -/
def opEi (s : State) : State := s.retire 1 1 { s with ime := true }

/-- R366, R393: `pc <- npc; halted <- 1`; no next boundary is scheduled. -/
def opHalt (s : State) : State := { s with pc := s.pc + 1#16, halted := true }

/-- R367: the outcome of `STOP`. -/
def raiseStop (s : State) : Host.Outcome State Fault Refusal := .fault (.stopInstruction s.pc)

/-- R368: the outcome of an unassigned first byte. -/
def raiseIllegal (byte : Byte) (s : State) : Host.Outcome State Fault Refusal :=
  .fault (.illegalOpcode s.pc byte)

/-- R360. -/
def execNOP (s : State) : Host.Outcome State Fault Refusal :=
  .next (opNop s)
/-- R367. -/
def execSTOP (s : State) : Host.Outcome State Fault Refusal :=
  raiseStop s
/-- R361. -/
def execDAA (s : State) : Host.Outcome State Fault Refusal :=
  .next (opDaa s)
/-- R362. -/
def execSCF (s : State) : Host.Outcome State Fault Refusal :=
  .next (opScf s)
/-- R363. -/
def execCCF (s : State) : Host.Outcome State Fault Refusal :=
  .next (opCcf s)
/-- R366. -/
def execHALT (s : State) : Host.Outcome State Fault Refusal :=
  .next (opHalt s)
/-- R368. -/
def execILLEGAL_D3 (s : State) : Host.Outcome State Fault Refusal :=
  raiseIllegal 0xD3#8 s
/-- R368. -/
def execILLEGAL_DB (s : State) : Host.Outcome State Fault Refusal :=
  raiseIllegal 0xDB#8 s
/-- R368. -/
def execILLEGAL_DD (s : State) : Host.Outcome State Fault Refusal :=
  raiseIllegal 0xDD#8 s
/-- R368. -/
def execILLEGAL_E3 (s : State) : Host.Outcome State Fault Refusal :=
  raiseIllegal 0xE3#8 s
/-- R368. -/
def execILLEGAL_E4 (s : State) : Host.Outcome State Fault Refusal :=
  raiseIllegal 0xE4#8 s
/-- R368. -/
def execILLEGAL_EB (s : State) : Host.Outcome State Fault Refusal :=
  raiseIllegal 0xEB#8 s
/-- R368. -/
def execILLEGAL_EC (s : State) : Host.Outcome State Fault Refusal :=
  raiseIllegal 0xEC#8 s
/-- R368. -/
def execILLEGAL_ED (s : State) : Host.Outcome State Fault Refusal :=
  raiseIllegal 0xED#8 s
/-- R364. -/
def execDI (s : State) : Host.Outcome State Fault Refusal :=
  .next (opDi s)
/-- R368. -/
def execILLEGAL_F4 (s : State) : Host.Outcome State Fault Refusal :=
  raiseIllegal 0xF4#8 s
/-- R365. -/
def execEI (s : State) : Host.Outcome State Fault Refusal :=
  .next (opEi s)
/-- R368. -/
def execILLEGAL_FC (s : State) : Host.Outcome State Fault Refusal :=
  raiseIllegal 0xFC#8 s
/-- R368. -/
def execILLEGAL_FD (s : State) : Host.Outcome State Fault Refusal :=
  raiseIllegal 0xFD#8 s

end Sys2Proof.Machine
end

