-- ==== Sys2Proof/WellFormed.lean ====
section
/-! DEFINITION. Well-formed instructions. Operands have the width of their encoding by type, so one check is
left: the row of the prefix byte is no instruction (30_encoding.md R124: "it is not an instruction"). -/

namespace Sys2Proof

/-- R124: every constructor but `PREFIX_CB` is an instruction. -/
abbrev Instr.WellFormed (i : Instr) : Prop := i ≠ .PREFIX_CB

end Sys2Proof
end

