-- ==== Sys2Proof/Decode.lean ====
section
/-! DEFINITION. Decoding (30_encoding.md sections 1 to 3) and, after it, the encoder. The decoder reads the fields
of R123 and follows the patterns of R132 and R133; the encoder is the table of byte values of opcode_table.json
(`match`). The two are written from the two forms the spec gives, so that each checks the other. -/

namespace Sys2Proof

/-! ## The families: an instruction from its operands -/

/-- The instructions of R210 by their operands. -/
def Instr.ldRegReg : R8 → R8 → Instr
  | .B, .B => .LD_B_B
  | .B, .C => .LD_B_C
  | .B, .D => .LD_B_D
  | .B, .E => .LD_B_E
  | .B, .H => .LD_B_H
  | .B, .L => .LD_B_L
  | .B, .A => .LD_B_A
  | .C, .B => .LD_C_B
  | .C, .C => .LD_C_C
  | .C, .D => .LD_C_D
  | .C, .E => .LD_C_E
  | .C, .H => .LD_C_H
  | .C, .L => .LD_C_L
  | .C, .A => .LD_C_A
  | .D, .B => .LD_D_B
  | .D, .C => .LD_D_C
  | .D, .D => .LD_D_D
  | .D, .E => .LD_D_E
  | .D, .H => .LD_D_H
  | .D, .L => .LD_D_L
  | .D, .A => .LD_D_A
  | .E, .B => .LD_E_B
  | .E, .C => .LD_E_C
  | .E, .D => .LD_E_D
  | .E, .E => .LD_E_E
  | .E, .H => .LD_E_H
  | .E, .L => .LD_E_L
  | .E, .A => .LD_E_A
  | .H, .B => .LD_H_B
  | .H, .C => .LD_H_C
  | .H, .D => .LD_H_D
  | .H, .E => .LD_H_E
  | .H, .H => .LD_H_H
  | .H, .L => .LD_H_L
  | .H, .A => .LD_H_A
  | .L, .B => .LD_L_B
  | .L, .C => .LD_L_C
  | .L, .D => .LD_L_D
  | .L, .E => .LD_L_E
  | .L, .H => .LD_L_H
  | .L, .L => .LD_L_L
  | .L, .A => .LD_L_A
  | .A, .B => .LD_A_B
  | .A, .C => .LD_A_C
  | .A, .D => .LD_A_D
  | .A, .E => .LD_A_E
  | .A, .H => .LD_A_H
  | .A, .L => .LD_A_L
  | .A, .A => .LD_A_A

/-- The instructions of R211 by their operands. -/
def Instr.ldRegImm : R8 → Byte → Instr
  | .B, n => .LD_B_n8 n
  | .C, n => .LD_C_n8 n
  | .D, n => .LD_D_n8 n
  | .E, n => .LD_E_n8 n
  | .H, n => .LD_H_n8 n
  | .L, n => .LD_L_n8 n
  | .A, n => .LD_A_n8 n

/-- The instructions of R212 by their operands. -/
def Instr.ldRegHl : R8 → Instr
  | .B => .LD_B_atHL
  | .C => .LD_C_atHL
  | .D => .LD_D_atHL
  | .E => .LD_E_atHL
  | .H => .LD_H_atHL
  | .L => .LD_L_atHL
  | .A => .LD_A_atHL

/-- The instructions of R213 by their operands. -/
def Instr.ldHlReg : R8 → Instr
  | .B => .LD_atHL_B
  | .C => .LD_atHL_C
  | .D => .LD_atHL_D
  | .E => .LD_atHL_E
  | .H => .LD_atHL_H
  | .L => .LD_atHL_L
  | .A => .LD_atHL_A

/-- The instructions of R215, R216, R219, R220 by their operands. -/
def Instr.ldAInd : Ind → Instr
  | .BC => .LD_A_atBC
  | .DE => .LD_A_atDE
  | .HLinc => .LD_A_atHLinc
  | .HLdec => .LD_A_atHLdec

/-- The instructions of R217, R218, R221, R222 by their operands. -/
def Instr.ldIndA : Ind → Instr
  | .BC => .LD_atBC_A
  | .DE => .LD_atDE_A
  | .HLinc => .LD_atHLinc_A
  | .HLdec => .LD_atHLdec_A

/-- The instructions of R229 by their operands. -/
def Instr.ldPairImm : R16 → Word → Instr
  | .BC, nn => .LD_BC_n16 nn
  | .DE, nn => .LD_DE_n16 nn
  | .HL, nn => .LD_HL_n16 nn
  | .SP, nn => .LD_SP_n16 nn

/-- The instructions of R232 by their operands. -/
def Instr.push : R16S → Instr
  | .BC => .PUSH_BC
  | .DE => .PUSH_DE
  | .HL => .PUSH_HL
  | .AF => .PUSH_AF

/-- The instructions of R233 by their operands. -/
def Instr.pop : R16S → Instr
  | .BC => .POP_BC
  | .DE => .POP_DE
  | .HL => .POP_HL
  | .AF => .POP_AF

/-- The instructions of R250, R253, R256, R259, R262, R290, R293, R296 by their operands. -/
def Instr.aluReg : AluOp → R8 → Instr
  | .ADD, .B => .ADD_A_B
  | .ADD, .C => .ADD_A_C
  | .ADD, .D => .ADD_A_D
  | .ADD, .E => .ADD_A_E
  | .ADD, .H => .ADD_A_H
  | .ADD, .L => .ADD_A_L
  | .ADD, .A => .ADD_A_A
  | .ADC, .B => .ADC_A_B
  | .ADC, .C => .ADC_A_C
  | .ADC, .D => .ADC_A_D
  | .ADC, .E => .ADC_A_E
  | .ADC, .H => .ADC_A_H
  | .ADC, .L => .ADC_A_L
  | .ADC, .A => .ADC_A_A
  | .SUB, .B => .SUB_B
  | .SUB, .C => .SUB_C
  | .SUB, .D => .SUB_D
  | .SUB, .E => .SUB_E
  | .SUB, .H => .SUB_H
  | .SUB, .L => .SUB_L
  | .SUB, .A => .SUB_A
  | .SBC, .B => .SBC_A_B
  | .SBC, .C => .SBC_A_C
  | .SBC, .D => .SBC_A_D
  | .SBC, .E => .SBC_A_E
  | .SBC, .H => .SBC_A_H
  | .SBC, .L => .SBC_A_L
  | .SBC, .A => .SBC_A_A
  | .AND, .B => .AND_B
  | .AND, .C => .AND_C
  | .AND, .D => .AND_D
  | .AND, .E => .AND_E
  | .AND, .H => .AND_H
  | .AND, .L => .AND_L
  | .AND, .A => .AND_A
  | .XOR, .B => .XOR_B
  | .XOR, .C => .XOR_C
  | .XOR, .D => .XOR_D
  | .XOR, .E => .XOR_E
  | .XOR, .H => .XOR_H
  | .XOR, .L => .XOR_L
  | .XOR, .A => .XOR_A
  | .OR, .B => .OR_B
  | .OR, .C => .OR_C
  | .OR, .D => .OR_D
  | .OR, .E => .OR_E
  | .OR, .H => .OR_H
  | .OR, .L => .OR_L
  | .OR, .A => .OR_A
  | .CP, .B => .CP_B
  | .CP, .C => .CP_C
  | .CP, .D => .CP_D
  | .CP, .E => .CP_E
  | .CP, .H => .CP_H
  | .CP, .L => .CP_L
  | .CP, .A => .CP_A

/-- The instructions of R251, R254, R257, R260, R263, R291, R294, R297 by their operands. -/
def Instr.aluImm : AluOp → Byte → Instr
  | .ADD, n => .ADD_A_n8 n
  | .ADC, n => .ADC_A_n8 n
  | .SUB, n => .SUB_n8 n
  | .SBC, n => .SBC_A_n8 n
  | .AND, n => .AND_n8 n
  | .XOR, n => .XOR_n8 n
  | .OR, n => .OR_n8 n
  | .CP, n => .CP_n8 n

/-- The instructions of R252, R255, R258, R261, R264, R292, R295, R298 by their operands. -/
def Instr.aluHl : AluOp → Instr
  | .ADD => .ADD_A_atHL
  | .ADC => .ADC_A_atHL
  | .SUB => .SUB_atHL
  | .SBC => .SBC_A_atHL
  | .AND => .AND_atHL
  | .XOR => .XOR_atHL
  | .OR => .OR_atHL
  | .CP => .CP_atHL

/-- The instructions of R265 by their operands. -/
def Instr.incReg : R8 → Instr
  | .B => .INC_B
  | .C => .INC_C
  | .D => .INC_D
  | .E => .INC_E
  | .H => .INC_H
  | .L => .INC_L
  | .A => .INC_A

/-- The instructions of R267 by their operands. -/
def Instr.decReg : R8 → Instr
  | .B => .DEC_B
  | .C => .DEC_C
  | .D => .DEC_D
  | .E => .DEC_E
  | .H => .DEC_H
  | .L => .DEC_L
  | .A => .DEC_A

/-- The instructions of R269 by their operands. -/
def Instr.incPair : R16 → Instr
  | .BC => .INC_BC
  | .DE => .INC_DE
  | .HL => .INC_HL
  | .SP => .INC_SP

/-- The instructions of R270 by their operands. -/
def Instr.decPair : R16 → Instr
  | .BC => .DEC_BC
  | .DE => .DEC_DE
  | .HL => .DEC_HL
  | .SP => .DEC_SP

/-- The instructions of R271 by their operands. -/
def Instr.addHl : R16 → Instr
  | .BC => .ADD_HL_BC
  | .DE => .ADD_HL_DE
  | .HL => .ADD_HL_HL
  | .SP => .ADD_HL_SP

/-- The instructions of R304 to R318, even numbers by their operands. -/
def Instr.rotReg : RotOp → R8 → Instr
  | .RLC, .B => .RLC_B
  | .RLC, .C => .RLC_C
  | .RLC, .D => .RLC_D
  | .RLC, .E => .RLC_E
  | .RLC, .H => .RLC_H
  | .RLC, .L => .RLC_L
  | .RLC, .A => .RLC_A
  | .RRC, .B => .RRC_B
  | .RRC, .C => .RRC_C
  | .RRC, .D => .RRC_D
  | .RRC, .E => .RRC_E
  | .RRC, .H => .RRC_H
  | .RRC, .L => .RRC_L
  | .RRC, .A => .RRC_A
  | .RL, .B => .RL_B
  | .RL, .C => .RL_C
  | .RL, .D => .RL_D
  | .RL, .E => .RL_E
  | .RL, .H => .RL_H
  | .RL, .L => .RL_L
  | .RL, .A => .RL_A
  | .RR, .B => .RR_B
  | .RR, .C => .RR_C
  | .RR, .D => .RR_D
  | .RR, .E => .RR_E
  | .RR, .H => .RR_H
  | .RR, .L => .RR_L
  | .RR, .A => .RR_A
  | .SLA, .B => .SLA_B
  | .SLA, .C => .SLA_C
  | .SLA, .D => .SLA_D
  | .SLA, .E => .SLA_E
  | .SLA, .H => .SLA_H
  | .SLA, .L => .SLA_L
  | .SLA, .A => .SLA_A
  | .SRA, .B => .SRA_B
  | .SRA, .C => .SRA_C
  | .SRA, .D => .SRA_D
  | .SRA, .E => .SRA_E
  | .SRA, .H => .SRA_H
  | .SRA, .L => .SRA_L
  | .SRA, .A => .SRA_A
  | .SWAP, .B => .SWAP_B
  | .SWAP, .C => .SWAP_C
  | .SWAP, .D => .SWAP_D
  | .SWAP, .E => .SWAP_E
  | .SWAP, .H => .SWAP_H
  | .SWAP, .L => .SWAP_L
  | .SWAP, .A => .SWAP_A
  | .SRL, .B => .SRL_B
  | .SRL, .C => .SRL_C
  | .SRL, .D => .SRL_D
  | .SRL, .E => .SRL_E
  | .SRL, .H => .SRL_H
  | .SRL, .L => .SRL_L
  | .SRL, .A => .SRL_A

/-- The instructions of R305 to R319, odd numbers by their operands. -/
def Instr.rotHl : RotOp → Instr
  | .RLC => .RLC_atHL
  | .RRC => .RRC_atHL
  | .RL => .RL_atHL
  | .RR => .RR_atHL
  | .SLA => .SLA_atHL
  | .SRA => .SRA_atHL
  | .SWAP => .SWAP_atHL
  | .SRL => .SRL_atHL

/-- The instructions of R330 by their operands. -/
def Instr.bitReg : Field3 → R8 → Instr
  | .f0, .B => .BIT_0_B
  | .f0, .C => .BIT_0_C
  | .f0, .D => .BIT_0_D
  | .f0, .E => .BIT_0_E
  | .f0, .H => .BIT_0_H
  | .f0, .L => .BIT_0_L
  | .f0, .A => .BIT_0_A
  | .f1, .B => .BIT_1_B
  | .f1, .C => .BIT_1_C
  | .f1, .D => .BIT_1_D
  | .f1, .E => .BIT_1_E
  | .f1, .H => .BIT_1_H
  | .f1, .L => .BIT_1_L
  | .f1, .A => .BIT_1_A
  | .f2, .B => .BIT_2_B
  | .f2, .C => .BIT_2_C
  | .f2, .D => .BIT_2_D
  | .f2, .E => .BIT_2_E
  | .f2, .H => .BIT_2_H
  | .f2, .L => .BIT_2_L
  | .f2, .A => .BIT_2_A
  | .f3, .B => .BIT_3_B
  | .f3, .C => .BIT_3_C
  | .f3, .D => .BIT_3_D
  | .f3, .E => .BIT_3_E
  | .f3, .H => .BIT_3_H
  | .f3, .L => .BIT_3_L
  | .f3, .A => .BIT_3_A
  | .f4, .B => .BIT_4_B
  | .f4, .C => .BIT_4_C
  | .f4, .D => .BIT_4_D
  | .f4, .E => .BIT_4_E
  | .f4, .H => .BIT_4_H
  | .f4, .L => .BIT_4_L
  | .f4, .A => .BIT_4_A
  | .f5, .B => .BIT_5_B
  | .f5, .C => .BIT_5_C
  | .f5, .D => .BIT_5_D
  | .f5, .E => .BIT_5_E
  | .f5, .H => .BIT_5_H
  | .f5, .L => .BIT_5_L
  | .f5, .A => .BIT_5_A
  | .f6, .B => .BIT_6_B
  | .f6, .C => .BIT_6_C
  | .f6, .D => .BIT_6_D
  | .f6, .E => .BIT_6_E
  | .f6, .H => .BIT_6_H
  | .f6, .L => .BIT_6_L
  | .f6, .A => .BIT_6_A
  | .f7, .B => .BIT_7_B
  | .f7, .C => .BIT_7_C
  | .f7, .D => .BIT_7_D
  | .f7, .E => .BIT_7_E
  | .f7, .H => .BIT_7_H
  | .f7, .L => .BIT_7_L
  | .f7, .A => .BIT_7_A

/-- The instructions of R331 by their operands. -/
def Instr.bitHl : Field3 → Instr
  | .f0 => .BIT_0_atHL
  | .f1 => .BIT_1_atHL
  | .f2 => .BIT_2_atHL
  | .f3 => .BIT_3_atHL
  | .f4 => .BIT_4_atHL
  | .f5 => .BIT_5_atHL
  | .f6 => .BIT_6_atHL
  | .f7 => .BIT_7_atHL

/-- The instructions of R332 by their operands. -/
def Instr.resReg : Field3 → R8 → Instr
  | .f0, .B => .RES_0_B
  | .f0, .C => .RES_0_C
  | .f0, .D => .RES_0_D
  | .f0, .E => .RES_0_E
  | .f0, .H => .RES_0_H
  | .f0, .L => .RES_0_L
  | .f0, .A => .RES_0_A
  | .f1, .B => .RES_1_B
  | .f1, .C => .RES_1_C
  | .f1, .D => .RES_1_D
  | .f1, .E => .RES_1_E
  | .f1, .H => .RES_1_H
  | .f1, .L => .RES_1_L
  | .f1, .A => .RES_1_A
  | .f2, .B => .RES_2_B
  | .f2, .C => .RES_2_C
  | .f2, .D => .RES_2_D
  | .f2, .E => .RES_2_E
  | .f2, .H => .RES_2_H
  | .f2, .L => .RES_2_L
  | .f2, .A => .RES_2_A
  | .f3, .B => .RES_3_B
  | .f3, .C => .RES_3_C
  | .f3, .D => .RES_3_D
  | .f3, .E => .RES_3_E
  | .f3, .H => .RES_3_H
  | .f3, .L => .RES_3_L
  | .f3, .A => .RES_3_A
  | .f4, .B => .RES_4_B
  | .f4, .C => .RES_4_C
  | .f4, .D => .RES_4_D
  | .f4, .E => .RES_4_E
  | .f4, .H => .RES_4_H
  | .f4, .L => .RES_4_L
  | .f4, .A => .RES_4_A
  | .f5, .B => .RES_5_B
  | .f5, .C => .RES_5_C
  | .f5, .D => .RES_5_D
  | .f5, .E => .RES_5_E
  | .f5, .H => .RES_5_H
  | .f5, .L => .RES_5_L
  | .f5, .A => .RES_5_A
  | .f6, .B => .RES_6_B
  | .f6, .C => .RES_6_C
  | .f6, .D => .RES_6_D
  | .f6, .E => .RES_6_E
  | .f6, .H => .RES_6_H
  | .f6, .L => .RES_6_L
  | .f6, .A => .RES_6_A
  | .f7, .B => .RES_7_B
  | .f7, .C => .RES_7_C
  | .f7, .D => .RES_7_D
  | .f7, .E => .RES_7_E
  | .f7, .H => .RES_7_H
  | .f7, .L => .RES_7_L
  | .f7, .A => .RES_7_A

/-- The instructions of R333 by their operands. -/
def Instr.resHl : Field3 → Instr
  | .f0 => .RES_0_atHL
  | .f1 => .RES_1_atHL
  | .f2 => .RES_2_atHL
  | .f3 => .RES_3_atHL
  | .f4 => .RES_4_atHL
  | .f5 => .RES_5_atHL
  | .f6 => .RES_6_atHL
  | .f7 => .RES_7_atHL

/-- The instructions of R334 by their operands. -/
def Instr.setReg : Field3 → R8 → Instr
  | .f0, .B => .SET_0_B
  | .f0, .C => .SET_0_C
  | .f0, .D => .SET_0_D
  | .f0, .E => .SET_0_E
  | .f0, .H => .SET_0_H
  | .f0, .L => .SET_0_L
  | .f0, .A => .SET_0_A
  | .f1, .B => .SET_1_B
  | .f1, .C => .SET_1_C
  | .f1, .D => .SET_1_D
  | .f1, .E => .SET_1_E
  | .f1, .H => .SET_1_H
  | .f1, .L => .SET_1_L
  | .f1, .A => .SET_1_A
  | .f2, .B => .SET_2_B
  | .f2, .C => .SET_2_C
  | .f2, .D => .SET_2_D
  | .f2, .E => .SET_2_E
  | .f2, .H => .SET_2_H
  | .f2, .L => .SET_2_L
  | .f2, .A => .SET_2_A
  | .f3, .B => .SET_3_B
  | .f3, .C => .SET_3_C
  | .f3, .D => .SET_3_D
  | .f3, .E => .SET_3_E
  | .f3, .H => .SET_3_H
  | .f3, .L => .SET_3_L
  | .f3, .A => .SET_3_A
  | .f4, .B => .SET_4_B
  | .f4, .C => .SET_4_C
  | .f4, .D => .SET_4_D
  | .f4, .E => .SET_4_E
  | .f4, .H => .SET_4_H
  | .f4, .L => .SET_4_L
  | .f4, .A => .SET_4_A
  | .f5, .B => .SET_5_B
  | .f5, .C => .SET_5_C
  | .f5, .D => .SET_5_D
  | .f5, .E => .SET_5_E
  | .f5, .H => .SET_5_H
  | .f5, .L => .SET_5_L
  | .f5, .A => .SET_5_A
  | .f6, .B => .SET_6_B
  | .f6, .C => .SET_6_C
  | .f6, .D => .SET_6_D
  | .f6, .E => .SET_6_E
  | .f6, .H => .SET_6_H
  | .f6, .L => .SET_6_L
  | .f6, .A => .SET_6_A
  | .f7, .B => .SET_7_B
  | .f7, .C => .SET_7_C
  | .f7, .D => .SET_7_D
  | .f7, .E => .SET_7_E
  | .f7, .H => .SET_7_H
  | .f7, .L => .SET_7_L
  | .f7, .A => .SET_7_A

/-- The instructions of R335 by their operands. -/
def Instr.setHl : Field3 → Instr
  | .f0 => .SET_0_atHL
  | .f1 => .SET_1_atHL
  | .f2 => .SET_2_atHL
  | .f3 => .SET_3_atHL
  | .f4 => .SET_4_atHL
  | .f5 => .SET_5_atHL
  | .f6 => .SET_6_atHL
  | .f7 => .SET_7_atHL

/-- The instructions of R341 by their operands. -/
def Instr.jpCond : Cond → Word → Instr
  | .NZ, nn => .JP_NZ_n16 nn
  | .Z, nn => .JP_Z_n16 nn
  | .NC, nn => .JP_NC_n16 nn
  | .C, nn => .JP_C_n16 nn

/-- The instructions of R344 by their operands. -/
def Instr.jrCond : Cond → Byte → Instr
  | .NZ, e => .JR_NZ_e8 e
  | .Z, e => .JR_Z_e8 e
  | .NC, e => .JR_NC_e8 e
  | .C, e => .JR_C_e8 e

/-- The instructions of R346 by their operands. -/
def Instr.callCond : Cond → Word → Instr
  | .NZ, nn => .CALL_NZ_n16 nn
  | .Z, nn => .CALL_Z_n16 nn
  | .NC, nn => .CALL_NC_n16 nn
  | .C, nn => .CALL_C_n16 nn

/-- The instructions of R348 by their operands. -/
def Instr.retCond : Cond → Instr
  | .NZ => .RET_NZ
  | .Z => .RET_Z
  | .NC => .RET_NC
  | .C => .RET_C

/-- The instructions of R350 by their operands. -/
def Instr.rst : Field3 → Instr
  | .f0 => .RST_00h
  | .f1 => .RST_08h
  | .f2 => .RST_10h
  | .f3 => .RST_18h
  | .f4 => .RST_20h
  | .f5 => .RST_28h
  | .f6 => .RST_30h
  | .f7 => .RST_38h

/-! ## Fields (R123) and operand codes (R125 to R127) -/

/-- x = b[7:6]. -/
def fieldX (b : Byte) : Nat := Machine.extract b 6 2
/-- y = b[5:3]: ddd, nnn, ttt, the ALU operation or the rotate kind. -/
def fieldY (b : Byte) : Nat := Machine.extract b 3 3
/-- z = b[2:0]: sss, the column. -/
def fieldZ (b : Byte) : Nat := Machine.extract b 0 3
/-- rr = b[5:4]. -/
def fieldP (b : Byte) : Nat := Machine.extract b 4 2
/-- q = b[3]. -/
def fieldQ (b : Byte) : Nat := Machine.extract b 3 1
/-- cc = b[4:3]. -/
def fieldC (b : Byte) : Nat := Machine.extract b 3 2

/-- R125: code 6 is `(HL)`, no register. -/
def R8.ofCode : Nat → Option R8
  | 0 => some .B
  | 1 => some .C
  | 2 => some .D
  | 3 => some .E
  | 4 => some .H
  | 5 => some .L
  | 6 => none
  | _ => some .A

/-- R126, with 3 = SP. -/
def R16.ofCode : Nat → R16
  | 0 => .BC
  | 1 => .DE
  | 2 => .HL
  | _ => .SP

/-- R126, with 3 = AF. -/
def R16S.ofCode : Nat → R16S
  | 0 => .BC
  | 1 => .DE
  | 2 => .HL
  | _ => .AF

/-- R127. -/
def Cond.ofCode : Nat → Cond
  | 0 => .NZ
  | 1 => .Z
  | 2 => .NC
  | _ => .C

/-- R132: y of the rows `10yyysss` and `11yyy110`. -/
def AluOp.ofCode : Nat → AluOp
  | 0 => .ADD
  | 1 => .ADC
  | 2 => .SUB
  | 3 => .SBC
  | 4 => .AND
  | 5 => .XOR
  | 6 => .OR
  | _ => .CP

/-- R133: y of the rows `00yyysss`. -/
def RotOp.ofCode : Nat → RotOp
  | 0 => .RLC
  | 1 => .RRC
  | 2 => .RL
  | 3 => .RR
  | 4 => .SLA
  | 5 => .SRA
  | 6 => .SWAP
  | _ => .SRL

/-- R130: nnn, ttt. -/
def Field3.ofCode : Nat → Field3
  | 0 => .f0
  | 1 => .f1
  | 2 => .f2
  | 3 => .f3
  | 4 => .f4
  | 5 => .f5
  | 6 => .f6
  | _ => .f7

/-- R132: p of the rows `00pp0010` and `00pp1010`. -/
def Ind.ofCode : Nat → Ind
  | 0 => .BC
  | 1 => .DE
  | 2 => .HLinc
  | _ => .HLdec

/-! ## The direct table (R132), a quadrant and a column at a time -/

/-- Rows `00yyy000`. -/
def column000 (y : Nat) (b : Byte) (e : Byte) (nn : Word) : Instr :=
  match y with
  | 0 => .NOP
  | 1 => .LD_atn16_SP nn
  | 2 => .STOP
  | 3 => .JR_e8 e
  | _ => .jrCond (Cond.ofCode (fieldC b)) e

/-- Rows `00yyy111`. -/
def column007 (y : Nat) : Instr :=
  match y with
  | 0 => .RLCA
  | 1 => .RRCA
  | 2 => .RLA
  | 3 => .RRA
  | 4 => .DAA
  | 5 => .CPL
  | 6 => .SCF
  | _ => .CCF

/-- Quadrant x = 0. -/
def quadrant0 (b n0 : Byte) (nn : Word) : Instr :=
  match fieldZ b with
  | 0 => column000 (fieldY b) b n0 nn
  | 1 => if fieldQ b = 0 then .ldPairImm (R16.ofCode (fieldP b)) nn else .addHl (R16.ofCode (fieldP b))
  | 2 => if fieldQ b = 0 then .ldIndA (Ind.ofCode (fieldP b)) else .ldAInd (Ind.ofCode (fieldP b))
  | 3 => if fieldQ b = 0 then .incPair (R16.ofCode (fieldP b)) else .decPair (R16.ofCode (fieldP b))
  | 4 => match R8.ofCode (fieldY b) with
    | some r => .incReg r
    | none => .INC_atHL
  | 5 => match R8.ofCode (fieldY b) with
    | some r => .decReg r
    | none => .DEC_atHL
  | 6 => match R8.ofCode (fieldY b) with
    | some r => .ldRegImm r n0
    | none => .LD_atHL_n8 n0
  | _ => column007 (fieldY b)

/-- Quadrant x = 1: the register loads, with `HALT` in the slot of `LD (HL),(HL)` (R366). -/
def quadrant1 (b : Byte) : Instr :=
  match R8.ofCode (fieldY b), R8.ofCode (fieldZ b) with
  | some d, some r => .ldRegReg d r
  | some d, none => .ldRegHl d
  | none, some r => .ldHlReg r
  | none, none => .HALT

/-- Quadrant x = 2: the two-operand operations on A. -/
def quadrant2 (b : Byte) : Instr :=
  match R8.ofCode (fieldZ b) with
  | some r => .aluReg (AluOp.ofCode (fieldY b)) r
  | none => .aluHl (AluOp.ofCode (fieldY b))

/-- Rows `11yyy000`. -/
def column300 (y : Nat) (b n0 : Byte) : Instr :=
  match y with
  | 4 => .LDH_atn8_A n0
  | 5 => .ADD_SP_e8 n0
  | 6 => .LDH_A_atn8 n0
  | 7 => .LD_HL_SPe8 n0
  | _ => .retCond (Cond.ofCode (fieldC b))

/-- Rows `11pp1001`. -/
def column301 (p : Nat) : Instr :=
  match p with
  | 0 => .RET
  | 1 => .RETI
  | 2 => .JP_HL
  | _ => .LD_SP_HL

/-- Rows `11yyy010`. -/
def column302 (y : Nat) (b : Byte) (nn : Word) : Instr :=
  match y with
  | 4 => .LD_atC_A
  | 5 => .LD_atn16_A nn
  | 6 => .LD_A_atC
  | 7 => .LD_A_atn16 nn
  | _ => .jpCond (Cond.ofCode (fieldC b)) nn

/-- Rows `11yyy011`; y = 1 is the prefix byte, whose entry is never dispatched (R124). -/
def column303 (y : Nat) (nn : Word) : Instr :=
  match y with
  | 0 => .JP_n16 nn
  | 1 => .PREFIX_CB
  | 2 => .ILLEGAL_D3
  | 3 => .ILLEGAL_DB
  | 4 => .ILLEGAL_E3
  | 5 => .ILLEGAL_EB
  | 6 => .DI
  | _ => .EI

/-- Rows `11yyy100`. -/
def column304 (y : Nat) (b : Byte) (nn : Word) : Instr :=
  match y with
  | 4 => .ILLEGAL_E4
  | 5 => .ILLEGAL_EC
  | 6 => .ILLEGAL_F4
  | 7 => .ILLEGAL_FC
  | _ => .callCond (Cond.ofCode (fieldC b)) nn

/-- Rows `11pp1101`. -/
def column305 (p : Nat) (nn : Word) : Instr :=
  match p with
  | 0 => .CALL_n16 nn
  | 1 => .ILLEGAL_DD
  | 2 => .ILLEGAL_ED
  | _ => .ILLEGAL_FD

/-- Quadrant x = 3. -/
def quadrant3 (b n0 : Byte) (nn : Word) : Instr :=
  match fieldZ b with
  | 0 => column300 (fieldY b) b n0
  | 1 => if fieldQ b = 0 then .pop (R16S.ofCode (fieldP b)) else column301 (fieldP b)
  | 2 => column302 (fieldY b) b nn
  | 3 => column303 (fieldY b) nn
  | 4 => column304 (fieldY b) b nn
  | 5 => if fieldQ b = 0 then .push (R16S.ofCode (fieldP b)) else column305 (fieldP b) nn
  | 6 => .aluImm (AluOp.ofCode (fieldY b)) n0
  | _ => .rst (Field3.ofCode (fieldY b))

/-- R120, R132: the instruction of a first byte `b`, with the two bytes that follow it in memory; an instruction
without an immediate does not depend on them (R121, R129). -/
def decodeDirect (b n0 n1 : Byte) : Instr :=
  match fieldX b with
  | 0 => quadrant0 b n0 (Machine.make16 n1 n0)
  | 1 => quadrant1 b
  | 2 => quadrant2 b
  | _ => quadrant3 b n0 (Machine.make16 n1 n0)

/-- R120, R133: the instruction that the byte after the prefix selects. -/
def decodePrefixed (b : Byte) : Instr :=
  match fieldX b, R8.ofCode (fieldZ b) with
  | 0, some r => .rotReg (RotOp.ofCode (fieldY b)) r
  | 0, none => .rotHl (RotOp.ofCode (fieldY b))
  | 1, some r => .bitReg (Field3.ofCode (fieldY b)) r
  | 1, none => .bitHl (Field3.ofCode (fieldY b))
  | 2, some r => .resReg (Field3.ofCode (fieldY b)) r
  | 2, none => .resHl (Field3.ofCode (fieldY b))
  | _, some r => .setReg (Field3.ofCode (fieldY b)) r
  | _, none => .setHl (Field3.ofCode (fieldY b))

/-- R124. -/
def prefixByte : Byte := 0xCB#8

/-- R121: the length in bytes, a function of the first byte alone (2 for every prefixed instruction), by the
column `len` of R132. -/
def lengthOf (b : Byte) : Nat :=
  match fieldX b, fieldZ b, fieldY b with
  | 0, 0, 0 => 1
  | 0, 0, 1 => 3
  | 0, 0, 2 => 1
  | 0, 0, _ => 2
  | 0, 1, y => if y % 2 = 0 then 3 else 1
  | 0, 6, _ => 2
  | 3, 0, y => if y < 4 then 1 else 2
  | 3, 2, y => if y = 4 then 1 else if y = 6 then 1 else 3
  | 3, 3, 0 => 3
  | 3, 3, 1 => 2
  | 3, 4, y => if y < 4 then 3 else 1
  | 3, 5, 1 => 3
  | 3, 6, _ => 2
  | _, _, _ => 1

/-- R120, R121, R393: the instruction at an address of a bus whose byte at `a` is `read a`: the first byte, then as many
operand bytes as its length says, in address order (R98), and no byte more. -/
def decodeAt (read : Word → Byte) (pc : Word) : Instr :=
  if read pc = prefixByte then decodePrefixed (read (pc + 1#16))
  else
    match lengthOf (read pc) with
    | 1 => decodeDirect (read pc) 0#8 0#8
    | 2 => decodeDirect (read pc) (read (pc + 1#16)) 0#8
    | _ => decodeDirect (read pc) (read (pc + 1#16)) (read (pc + 2#16))

/-! ## Decoding a list of bytes -/

/-- Why a list of bytes holds no instruction. Every first byte decodes (R137), so only its end can be missing. -/
inductive DecodeError where
  /-- No byte at all. -/
  | empty
  /-- The bytes end before the instruction that starts with `op` does. -/
  | truncated (op : Byte)
deriving DecidableEq, Repr

/-- Decoding from the front of a list of bytes: the instruction and the bytes that follow it, or the reason why
there is none. -/
def decode : List Byte → Except DecodeError (Instr × List Byte)
  | [] => .error .empty
  | b :: rest =>
    if b = prefixByte then
      match rest with
      | [] => .error (.truncated b)
      | b2 :: tail => .ok (decodePrefixed b2, tail)
    else
      match lengthOf b, rest with
      | 1, tail => .ok (decodeDirect b 0#8 0#8, tail)
      | 2, n0 :: tail => .ok (decodeDirect b n0 0#8, tail)
      | 3, n0 :: n1 :: tail => .ok (decodeDirect b n0 n1, tail)
      | _, _ => .error (.truncated b)

/-! ## The encoder -/

/-- R122 and `match` of opcode_table.json: the bytes of an instruction, first byte first, a word's low byte first
(R96). -/
def encode : Instr → List Byte
  | .NOP => [0x00#8]
  | .LD_BC_n16 n => [0x01#8, Machine.lowByte n, Machine.highByte n]
  | .LD_atBC_A => [0x02#8]
  | .INC_BC => [0x03#8]
  | .INC_B => [0x04#8]
  | .DEC_B => [0x05#8]
  | .LD_B_n8 n => [0x06#8, n]
  | .RLCA => [0x07#8]
  | .LD_atn16_SP n => [0x08#8, Machine.lowByte n, Machine.highByte n]
  | .ADD_HL_BC => [0x09#8]
  | .LD_A_atBC => [0x0A#8]
  | .DEC_BC => [0x0B#8]
  | .INC_C => [0x0C#8]
  | .DEC_C => [0x0D#8]
  | .LD_C_n8 n => [0x0E#8, n]
  | .RRCA => [0x0F#8]
  | .STOP => [0x10#8]
  | .LD_DE_n16 n => [0x11#8, Machine.lowByte n, Machine.highByte n]
  | .LD_atDE_A => [0x12#8]
  | .INC_DE => [0x13#8]
  | .INC_D => [0x14#8]
  | .DEC_D => [0x15#8]
  | .LD_D_n8 n => [0x16#8, n]
  | .RLA => [0x17#8]
  | .JR_e8 e => [0x18#8, e]
  | .ADD_HL_DE => [0x19#8]
  | .LD_A_atDE => [0x1A#8]
  | .DEC_DE => [0x1B#8]
  | .INC_E => [0x1C#8]
  | .DEC_E => [0x1D#8]
  | .LD_E_n8 n => [0x1E#8, n]
  | .RRA => [0x1F#8]
  | .JR_NZ_e8 e => [0x20#8, e]
  | .LD_HL_n16 n => [0x21#8, Machine.lowByte n, Machine.highByte n]
  | .LD_atHLinc_A => [0x22#8]
  | .INC_HL => [0x23#8]
  | .INC_H => [0x24#8]
  | .DEC_H => [0x25#8]
  | .LD_H_n8 n => [0x26#8, n]
  | .DAA => [0x27#8]
  | .JR_Z_e8 e => [0x28#8, e]
  | .ADD_HL_HL => [0x29#8]
  | .LD_A_atHLinc => [0x2A#8]
  | .DEC_HL => [0x2B#8]
  | .INC_L => [0x2C#8]
  | .DEC_L => [0x2D#8]
  | .LD_L_n8 n => [0x2E#8, n]
  | .CPL => [0x2F#8]
  | .JR_NC_e8 e => [0x30#8, e]
  | .LD_SP_n16 n => [0x31#8, Machine.lowByte n, Machine.highByte n]
  | .LD_atHLdec_A => [0x32#8]
  | .INC_SP => [0x33#8]
  | .INC_atHL => [0x34#8]
  | .DEC_atHL => [0x35#8]
  | .LD_atHL_n8 n => [0x36#8, n]
  | .SCF => [0x37#8]
  | .JR_C_e8 e => [0x38#8, e]
  | .ADD_HL_SP => [0x39#8]
  | .LD_A_atHLdec => [0x3A#8]
  | .DEC_SP => [0x3B#8]
  | .INC_A => [0x3C#8]
  | .DEC_A => [0x3D#8]
  | .LD_A_n8 n => [0x3E#8, n]
  | .CCF => [0x3F#8]
  | .LD_B_B => [0x40#8]
  | .LD_B_C => [0x41#8]
  | .LD_B_D => [0x42#8]
  | .LD_B_E => [0x43#8]
  | .LD_B_H => [0x44#8]
  | .LD_B_L => [0x45#8]
  | .LD_B_atHL => [0x46#8]
  | .LD_B_A => [0x47#8]
  | .LD_C_B => [0x48#8]
  | .LD_C_C => [0x49#8]
  | .LD_C_D => [0x4A#8]
  | .LD_C_E => [0x4B#8]
  | .LD_C_H => [0x4C#8]
  | .LD_C_L => [0x4D#8]
  | .LD_C_atHL => [0x4E#8]
  | .LD_C_A => [0x4F#8]
  | .LD_D_B => [0x50#8]
  | .LD_D_C => [0x51#8]
  | .LD_D_D => [0x52#8]
  | .LD_D_E => [0x53#8]
  | .LD_D_H => [0x54#8]
  | .LD_D_L => [0x55#8]
  | .LD_D_atHL => [0x56#8]
  | .LD_D_A => [0x57#8]
  | .LD_E_B => [0x58#8]
  | .LD_E_C => [0x59#8]
  | .LD_E_D => [0x5A#8]
  | .LD_E_E => [0x5B#8]
  | .LD_E_H => [0x5C#8]
  | .LD_E_L => [0x5D#8]
  | .LD_E_atHL => [0x5E#8]
  | .LD_E_A => [0x5F#8]
  | .LD_H_B => [0x60#8]
  | .LD_H_C => [0x61#8]
  | .LD_H_D => [0x62#8]
  | .LD_H_E => [0x63#8]
  | .LD_H_H => [0x64#8]
  | .LD_H_L => [0x65#8]
  | .LD_H_atHL => [0x66#8]
  | .LD_H_A => [0x67#8]
  | .LD_L_B => [0x68#8]
  | .LD_L_C => [0x69#8]
  | .LD_L_D => [0x6A#8]
  | .LD_L_E => [0x6B#8]
  | .LD_L_H => [0x6C#8]
  | .LD_L_L => [0x6D#8]
  | .LD_L_atHL => [0x6E#8]
  | .LD_L_A => [0x6F#8]
  | .LD_atHL_B => [0x70#8]
  | .LD_atHL_C => [0x71#8]
  | .LD_atHL_D => [0x72#8]
  | .LD_atHL_E => [0x73#8]
  | .LD_atHL_H => [0x74#8]
  | .LD_atHL_L => [0x75#8]
  | .HALT => [0x76#8]
  | .LD_atHL_A => [0x77#8]
  | .LD_A_B => [0x78#8]
  | .LD_A_C => [0x79#8]
  | .LD_A_D => [0x7A#8]
  | .LD_A_E => [0x7B#8]
  | .LD_A_H => [0x7C#8]
  | .LD_A_L => [0x7D#8]
  | .LD_A_atHL => [0x7E#8]
  | .LD_A_A => [0x7F#8]
  | .ADD_A_B => [0x80#8]
  | .ADD_A_C => [0x81#8]
  | .ADD_A_D => [0x82#8]
  | .ADD_A_E => [0x83#8]
  | .ADD_A_H => [0x84#8]
  | .ADD_A_L => [0x85#8]
  | .ADD_A_atHL => [0x86#8]
  | .ADD_A_A => [0x87#8]
  | .ADC_A_B => [0x88#8]
  | .ADC_A_C => [0x89#8]
  | .ADC_A_D => [0x8A#8]
  | .ADC_A_E => [0x8B#8]
  | .ADC_A_H => [0x8C#8]
  | .ADC_A_L => [0x8D#8]
  | .ADC_A_atHL => [0x8E#8]
  | .ADC_A_A => [0x8F#8]
  | .SUB_B => [0x90#8]
  | .SUB_C => [0x91#8]
  | .SUB_D => [0x92#8]
  | .SUB_E => [0x93#8]
  | .SUB_H => [0x94#8]
  | .SUB_L => [0x95#8]
  | .SUB_atHL => [0x96#8]
  | .SUB_A => [0x97#8]
  | .SBC_A_B => [0x98#8]
  | .SBC_A_C => [0x99#8]
  | .SBC_A_D => [0x9A#8]
  | .SBC_A_E => [0x9B#8]
  | .SBC_A_H => [0x9C#8]
  | .SBC_A_L => [0x9D#8]
  | .SBC_A_atHL => [0x9E#8]
  | .SBC_A_A => [0x9F#8]
  | .AND_B => [0xA0#8]
  | .AND_C => [0xA1#8]
  | .AND_D => [0xA2#8]
  | .AND_E => [0xA3#8]
  | .AND_H => [0xA4#8]
  | .AND_L => [0xA5#8]
  | .AND_atHL => [0xA6#8]
  | .AND_A => [0xA7#8]
  | .XOR_B => [0xA8#8]
  | .XOR_C => [0xA9#8]
  | .XOR_D => [0xAA#8]
  | .XOR_E => [0xAB#8]
  | .XOR_H => [0xAC#8]
  | .XOR_L => [0xAD#8]
  | .XOR_atHL => [0xAE#8]
  | .XOR_A => [0xAF#8]
  | .OR_B => [0xB0#8]
  | .OR_C => [0xB1#8]
  | .OR_D => [0xB2#8]
  | .OR_E => [0xB3#8]
  | .OR_H => [0xB4#8]
  | .OR_L => [0xB5#8]
  | .OR_atHL => [0xB6#8]
  | .OR_A => [0xB7#8]
  | .CP_B => [0xB8#8]
  | .CP_C => [0xB9#8]
  | .CP_D => [0xBA#8]
  | .CP_E => [0xBB#8]
  | .CP_H => [0xBC#8]
  | .CP_L => [0xBD#8]
  | .CP_atHL => [0xBE#8]
  | .CP_A => [0xBF#8]
  | .RET_NZ => [0xC0#8]
  | .POP_BC => [0xC1#8]
  | .JP_NZ_n16 n => [0xC2#8, Machine.lowByte n, Machine.highByte n]
  | .JP_n16 n => [0xC3#8, Machine.lowByte n, Machine.highByte n]
  | .CALL_NZ_n16 n => [0xC4#8, Machine.lowByte n, Machine.highByte n]
  | .PUSH_BC => [0xC5#8]
  | .ADD_A_n8 n => [0xC6#8, n]
  | .RST_00h => [0xC7#8]
  | .RET_Z => [0xC8#8]
  | .RET => [0xC9#8]
  | .JP_Z_n16 n => [0xCA#8, Machine.lowByte n, Machine.highByte n]
  | .PREFIX_CB => [0xCB#8]
  | .CALL_Z_n16 n => [0xCC#8, Machine.lowByte n, Machine.highByte n]
  | .CALL_n16 n => [0xCD#8, Machine.lowByte n, Machine.highByte n]
  | .ADC_A_n8 n => [0xCE#8, n]
  | .RST_08h => [0xCF#8]
  | .RET_NC => [0xD0#8]
  | .POP_DE => [0xD1#8]
  | .JP_NC_n16 n => [0xD2#8, Machine.lowByte n, Machine.highByte n]
  | .ILLEGAL_D3 => [0xD3#8]
  | .CALL_NC_n16 n => [0xD4#8, Machine.lowByte n, Machine.highByte n]
  | .PUSH_DE => [0xD5#8]
  | .SUB_n8 n => [0xD6#8, n]
  | .RST_10h => [0xD7#8]
  | .RET_C => [0xD8#8]
  | .RETI => [0xD9#8]
  | .JP_C_n16 n => [0xDA#8, Machine.lowByte n, Machine.highByte n]
  | .ILLEGAL_DB => [0xDB#8]
  | .CALL_C_n16 n => [0xDC#8, Machine.lowByte n, Machine.highByte n]
  | .ILLEGAL_DD => [0xDD#8]
  | .SBC_A_n8 n => [0xDE#8, n]
  | .RST_18h => [0xDF#8]
  | .LDH_atn8_A n => [0xE0#8, n]
  | .POP_HL => [0xE1#8]
  | .LD_atC_A => [0xE2#8]
  | .ILLEGAL_E3 => [0xE3#8]
  | .ILLEGAL_E4 => [0xE4#8]
  | .PUSH_HL => [0xE5#8]
  | .AND_n8 n => [0xE6#8, n]
  | .RST_20h => [0xE7#8]
  | .ADD_SP_e8 e => [0xE8#8, e]
  | .JP_HL => [0xE9#8]
  | .LD_atn16_A n => [0xEA#8, Machine.lowByte n, Machine.highByte n]
  | .ILLEGAL_EB => [0xEB#8]
  | .ILLEGAL_EC => [0xEC#8]
  | .ILLEGAL_ED => [0xED#8]
  | .XOR_n8 n => [0xEE#8, n]
  | .RST_28h => [0xEF#8]
  | .LDH_A_atn8 n => [0xF0#8, n]
  | .POP_AF => [0xF1#8]
  | .LD_A_atC => [0xF2#8]
  | .DI => [0xF3#8]
  | .ILLEGAL_F4 => [0xF4#8]
  | .PUSH_AF => [0xF5#8]
  | .OR_n8 n => [0xF6#8, n]
  | .RST_30h => [0xF7#8]
  | .LD_HL_SPe8 e => [0xF8#8, e]
  | .LD_SP_HL => [0xF9#8]
  | .LD_A_atn16 n => [0xFA#8, Machine.lowByte n, Machine.highByte n]
  | .EI => [0xFB#8]
  | .ILLEGAL_FC => [0xFC#8]
  | .ILLEGAL_FD => [0xFD#8]
  | .CP_n8 n => [0xFE#8, n]
  | .RST_38h => [0xFF#8]
  | .RLC_B => [0xCB#8, 0x00#8]
  | .RLC_C => [0xCB#8, 0x01#8]
  | .RLC_D => [0xCB#8, 0x02#8]
  | .RLC_E => [0xCB#8, 0x03#8]
  | .RLC_H => [0xCB#8, 0x04#8]
  | .RLC_L => [0xCB#8, 0x05#8]
  | .RLC_atHL => [0xCB#8, 0x06#8]
  | .RLC_A => [0xCB#8, 0x07#8]
  | .RRC_B => [0xCB#8, 0x08#8]
  | .RRC_C => [0xCB#8, 0x09#8]
  | .RRC_D => [0xCB#8, 0x0A#8]
  | .RRC_E => [0xCB#8, 0x0B#8]
  | .RRC_H => [0xCB#8, 0x0C#8]
  | .RRC_L => [0xCB#8, 0x0D#8]
  | .RRC_atHL => [0xCB#8, 0x0E#8]
  | .RRC_A => [0xCB#8, 0x0F#8]
  | .RL_B => [0xCB#8, 0x10#8]
  | .RL_C => [0xCB#8, 0x11#8]
  | .RL_D => [0xCB#8, 0x12#8]
  | .RL_E => [0xCB#8, 0x13#8]
  | .RL_H => [0xCB#8, 0x14#8]
  | .RL_L => [0xCB#8, 0x15#8]
  | .RL_atHL => [0xCB#8, 0x16#8]
  | .RL_A => [0xCB#8, 0x17#8]
  | .RR_B => [0xCB#8, 0x18#8]
  | .RR_C => [0xCB#8, 0x19#8]
  | .RR_D => [0xCB#8, 0x1A#8]
  | .RR_E => [0xCB#8, 0x1B#8]
  | .RR_H => [0xCB#8, 0x1C#8]
  | .RR_L => [0xCB#8, 0x1D#8]
  | .RR_atHL => [0xCB#8, 0x1E#8]
  | .RR_A => [0xCB#8, 0x1F#8]
  | .SLA_B => [0xCB#8, 0x20#8]
  | .SLA_C => [0xCB#8, 0x21#8]
  | .SLA_D => [0xCB#8, 0x22#8]
  | .SLA_E => [0xCB#8, 0x23#8]
  | .SLA_H => [0xCB#8, 0x24#8]
  | .SLA_L => [0xCB#8, 0x25#8]
  | .SLA_atHL => [0xCB#8, 0x26#8]
  | .SLA_A => [0xCB#8, 0x27#8]
  | .SRA_B => [0xCB#8, 0x28#8]
  | .SRA_C => [0xCB#8, 0x29#8]
  | .SRA_D => [0xCB#8, 0x2A#8]
  | .SRA_E => [0xCB#8, 0x2B#8]
  | .SRA_H => [0xCB#8, 0x2C#8]
  | .SRA_L => [0xCB#8, 0x2D#8]
  | .SRA_atHL => [0xCB#8, 0x2E#8]
  | .SRA_A => [0xCB#8, 0x2F#8]
  | .SWAP_B => [0xCB#8, 0x30#8]
  | .SWAP_C => [0xCB#8, 0x31#8]
  | .SWAP_D => [0xCB#8, 0x32#8]
  | .SWAP_E => [0xCB#8, 0x33#8]
  | .SWAP_H => [0xCB#8, 0x34#8]
  | .SWAP_L => [0xCB#8, 0x35#8]
  | .SWAP_atHL => [0xCB#8, 0x36#8]
  | .SWAP_A => [0xCB#8, 0x37#8]
  | .SRL_B => [0xCB#8, 0x38#8]
  | .SRL_C => [0xCB#8, 0x39#8]
  | .SRL_D => [0xCB#8, 0x3A#8]
  | .SRL_E => [0xCB#8, 0x3B#8]
  | .SRL_H => [0xCB#8, 0x3C#8]
  | .SRL_L => [0xCB#8, 0x3D#8]
  | .SRL_atHL => [0xCB#8, 0x3E#8]
  | .SRL_A => [0xCB#8, 0x3F#8]
  | .BIT_0_B => [0xCB#8, 0x40#8]
  | .BIT_0_C => [0xCB#8, 0x41#8]
  | .BIT_0_D => [0xCB#8, 0x42#8]
  | .BIT_0_E => [0xCB#8, 0x43#8]
  | .BIT_0_H => [0xCB#8, 0x44#8]
  | .BIT_0_L => [0xCB#8, 0x45#8]
  | .BIT_0_atHL => [0xCB#8, 0x46#8]
  | .BIT_0_A => [0xCB#8, 0x47#8]
  | .BIT_1_B => [0xCB#8, 0x48#8]
  | .BIT_1_C => [0xCB#8, 0x49#8]
  | .BIT_1_D => [0xCB#8, 0x4A#8]
  | .BIT_1_E => [0xCB#8, 0x4B#8]
  | .BIT_1_H => [0xCB#8, 0x4C#8]
  | .BIT_1_L => [0xCB#8, 0x4D#8]
  | .BIT_1_atHL => [0xCB#8, 0x4E#8]
  | .BIT_1_A => [0xCB#8, 0x4F#8]
  | .BIT_2_B => [0xCB#8, 0x50#8]
  | .BIT_2_C => [0xCB#8, 0x51#8]
  | .BIT_2_D => [0xCB#8, 0x52#8]
  | .BIT_2_E => [0xCB#8, 0x53#8]
  | .BIT_2_H => [0xCB#8, 0x54#8]
  | .BIT_2_L => [0xCB#8, 0x55#8]
  | .BIT_2_atHL => [0xCB#8, 0x56#8]
  | .BIT_2_A => [0xCB#8, 0x57#8]
  | .BIT_3_B => [0xCB#8, 0x58#8]
  | .BIT_3_C => [0xCB#8, 0x59#8]
  | .BIT_3_D => [0xCB#8, 0x5A#8]
  | .BIT_3_E => [0xCB#8, 0x5B#8]
  | .BIT_3_H => [0xCB#8, 0x5C#8]
  | .BIT_3_L => [0xCB#8, 0x5D#8]
  | .BIT_3_atHL => [0xCB#8, 0x5E#8]
  | .BIT_3_A => [0xCB#8, 0x5F#8]
  | .BIT_4_B => [0xCB#8, 0x60#8]
  | .BIT_4_C => [0xCB#8, 0x61#8]
  | .BIT_4_D => [0xCB#8, 0x62#8]
  | .BIT_4_E => [0xCB#8, 0x63#8]
  | .BIT_4_H => [0xCB#8, 0x64#8]
  | .BIT_4_L => [0xCB#8, 0x65#8]
  | .BIT_4_atHL => [0xCB#8, 0x66#8]
  | .BIT_4_A => [0xCB#8, 0x67#8]
  | .BIT_5_B => [0xCB#8, 0x68#8]
  | .BIT_5_C => [0xCB#8, 0x69#8]
  | .BIT_5_D => [0xCB#8, 0x6A#8]
  | .BIT_5_E => [0xCB#8, 0x6B#8]
  | .BIT_5_H => [0xCB#8, 0x6C#8]
  | .BIT_5_L => [0xCB#8, 0x6D#8]
  | .BIT_5_atHL => [0xCB#8, 0x6E#8]
  | .BIT_5_A => [0xCB#8, 0x6F#8]
  | .BIT_6_B => [0xCB#8, 0x70#8]
  | .BIT_6_C => [0xCB#8, 0x71#8]
  | .BIT_6_D => [0xCB#8, 0x72#8]
  | .BIT_6_E => [0xCB#8, 0x73#8]
  | .BIT_6_H => [0xCB#8, 0x74#8]
  | .BIT_6_L => [0xCB#8, 0x75#8]
  | .BIT_6_atHL => [0xCB#8, 0x76#8]
  | .BIT_6_A => [0xCB#8, 0x77#8]
  | .BIT_7_B => [0xCB#8, 0x78#8]
  | .BIT_7_C => [0xCB#8, 0x79#8]
  | .BIT_7_D => [0xCB#8, 0x7A#8]
  | .BIT_7_E => [0xCB#8, 0x7B#8]
  | .BIT_7_H => [0xCB#8, 0x7C#8]
  | .BIT_7_L => [0xCB#8, 0x7D#8]
  | .BIT_7_atHL => [0xCB#8, 0x7E#8]
  | .BIT_7_A => [0xCB#8, 0x7F#8]
  | .RES_0_B => [0xCB#8, 0x80#8]
  | .RES_0_C => [0xCB#8, 0x81#8]
  | .RES_0_D => [0xCB#8, 0x82#8]
  | .RES_0_E => [0xCB#8, 0x83#8]
  | .RES_0_H => [0xCB#8, 0x84#8]
  | .RES_0_L => [0xCB#8, 0x85#8]
  | .RES_0_atHL => [0xCB#8, 0x86#8]
  | .RES_0_A => [0xCB#8, 0x87#8]
  | .RES_1_B => [0xCB#8, 0x88#8]
  | .RES_1_C => [0xCB#8, 0x89#8]
  | .RES_1_D => [0xCB#8, 0x8A#8]
  | .RES_1_E => [0xCB#8, 0x8B#8]
  | .RES_1_H => [0xCB#8, 0x8C#8]
  | .RES_1_L => [0xCB#8, 0x8D#8]
  | .RES_1_atHL => [0xCB#8, 0x8E#8]
  | .RES_1_A => [0xCB#8, 0x8F#8]
  | .RES_2_B => [0xCB#8, 0x90#8]
  | .RES_2_C => [0xCB#8, 0x91#8]
  | .RES_2_D => [0xCB#8, 0x92#8]
  | .RES_2_E => [0xCB#8, 0x93#8]
  | .RES_2_H => [0xCB#8, 0x94#8]
  | .RES_2_L => [0xCB#8, 0x95#8]
  | .RES_2_atHL => [0xCB#8, 0x96#8]
  | .RES_2_A => [0xCB#8, 0x97#8]
  | .RES_3_B => [0xCB#8, 0x98#8]
  | .RES_3_C => [0xCB#8, 0x99#8]
  | .RES_3_D => [0xCB#8, 0x9A#8]
  | .RES_3_E => [0xCB#8, 0x9B#8]
  | .RES_3_H => [0xCB#8, 0x9C#8]
  | .RES_3_L => [0xCB#8, 0x9D#8]
  | .RES_3_atHL => [0xCB#8, 0x9E#8]
  | .RES_3_A => [0xCB#8, 0x9F#8]
  | .RES_4_B => [0xCB#8, 0xA0#8]
  | .RES_4_C => [0xCB#8, 0xA1#8]
  | .RES_4_D => [0xCB#8, 0xA2#8]
  | .RES_4_E => [0xCB#8, 0xA3#8]
  | .RES_4_H => [0xCB#8, 0xA4#8]
  | .RES_4_L => [0xCB#8, 0xA5#8]
  | .RES_4_atHL => [0xCB#8, 0xA6#8]
  | .RES_4_A => [0xCB#8, 0xA7#8]
  | .RES_5_B => [0xCB#8, 0xA8#8]
  | .RES_5_C => [0xCB#8, 0xA9#8]
  | .RES_5_D => [0xCB#8, 0xAA#8]
  | .RES_5_E => [0xCB#8, 0xAB#8]
  | .RES_5_H => [0xCB#8, 0xAC#8]
  | .RES_5_L => [0xCB#8, 0xAD#8]
  | .RES_5_atHL => [0xCB#8, 0xAE#8]
  | .RES_5_A => [0xCB#8, 0xAF#8]
  | .RES_6_B => [0xCB#8, 0xB0#8]
  | .RES_6_C => [0xCB#8, 0xB1#8]
  | .RES_6_D => [0xCB#8, 0xB2#8]
  | .RES_6_E => [0xCB#8, 0xB3#8]
  | .RES_6_H => [0xCB#8, 0xB4#8]
  | .RES_6_L => [0xCB#8, 0xB5#8]
  | .RES_6_atHL => [0xCB#8, 0xB6#8]
  | .RES_6_A => [0xCB#8, 0xB7#8]
  | .RES_7_B => [0xCB#8, 0xB8#8]
  | .RES_7_C => [0xCB#8, 0xB9#8]
  | .RES_7_D => [0xCB#8, 0xBA#8]
  | .RES_7_E => [0xCB#8, 0xBB#8]
  | .RES_7_H => [0xCB#8, 0xBC#8]
  | .RES_7_L => [0xCB#8, 0xBD#8]
  | .RES_7_atHL => [0xCB#8, 0xBE#8]
  | .RES_7_A => [0xCB#8, 0xBF#8]
  | .SET_0_B => [0xCB#8, 0xC0#8]
  | .SET_0_C => [0xCB#8, 0xC1#8]
  | .SET_0_D => [0xCB#8, 0xC2#8]
  | .SET_0_E => [0xCB#8, 0xC3#8]
  | .SET_0_H => [0xCB#8, 0xC4#8]
  | .SET_0_L => [0xCB#8, 0xC5#8]
  | .SET_0_atHL => [0xCB#8, 0xC6#8]
  | .SET_0_A => [0xCB#8, 0xC7#8]
  | .SET_1_B => [0xCB#8, 0xC8#8]
  | .SET_1_C => [0xCB#8, 0xC9#8]
  | .SET_1_D => [0xCB#8, 0xCA#8]
  | .SET_1_E => [0xCB#8, 0xCB#8]
  | .SET_1_H => [0xCB#8, 0xCC#8]
  | .SET_1_L => [0xCB#8, 0xCD#8]
  | .SET_1_atHL => [0xCB#8, 0xCE#8]
  | .SET_1_A => [0xCB#8, 0xCF#8]
  | .SET_2_B => [0xCB#8, 0xD0#8]
  | .SET_2_C => [0xCB#8, 0xD1#8]
  | .SET_2_D => [0xCB#8, 0xD2#8]
  | .SET_2_E => [0xCB#8, 0xD3#8]
  | .SET_2_H => [0xCB#8, 0xD4#8]
  | .SET_2_L => [0xCB#8, 0xD5#8]
  | .SET_2_atHL => [0xCB#8, 0xD6#8]
  | .SET_2_A => [0xCB#8, 0xD7#8]
  | .SET_3_B => [0xCB#8, 0xD8#8]
  | .SET_3_C => [0xCB#8, 0xD9#8]
  | .SET_3_D => [0xCB#8, 0xDA#8]
  | .SET_3_E => [0xCB#8, 0xDB#8]
  | .SET_3_H => [0xCB#8, 0xDC#8]
  | .SET_3_L => [0xCB#8, 0xDD#8]
  | .SET_3_atHL => [0xCB#8, 0xDE#8]
  | .SET_3_A => [0xCB#8, 0xDF#8]
  | .SET_4_B => [0xCB#8, 0xE0#8]
  | .SET_4_C => [0xCB#8, 0xE1#8]
  | .SET_4_D => [0xCB#8, 0xE2#8]
  | .SET_4_E => [0xCB#8, 0xE3#8]
  | .SET_4_H => [0xCB#8, 0xE4#8]
  | .SET_4_L => [0xCB#8, 0xE5#8]
  | .SET_4_atHL => [0xCB#8, 0xE6#8]
  | .SET_4_A => [0xCB#8, 0xE7#8]
  | .SET_5_B => [0xCB#8, 0xE8#8]
  | .SET_5_C => [0xCB#8, 0xE9#8]
  | .SET_5_D => [0xCB#8, 0xEA#8]
  | .SET_5_E => [0xCB#8, 0xEB#8]
  | .SET_5_H => [0xCB#8, 0xEC#8]
  | .SET_5_L => [0xCB#8, 0xED#8]
  | .SET_5_atHL => [0xCB#8, 0xEE#8]
  | .SET_5_A => [0xCB#8, 0xEF#8]
  | .SET_6_B => [0xCB#8, 0xF0#8]
  | .SET_6_C => [0xCB#8, 0xF1#8]
  | .SET_6_D => [0xCB#8, 0xF2#8]
  | .SET_6_E => [0xCB#8, 0xF3#8]
  | .SET_6_H => [0xCB#8, 0xF4#8]
  | .SET_6_L => [0xCB#8, 0xF5#8]
  | .SET_6_atHL => [0xCB#8, 0xF6#8]
  | .SET_6_A => [0xCB#8, 0xF7#8]
  | .SET_7_B => [0xCB#8, 0xF8#8]
  | .SET_7_C => [0xCB#8, 0xF9#8]
  | .SET_7_D => [0xCB#8, 0xFA#8]
  | .SET_7_E => [0xCB#8, 0xFB#8]
  | .SET_7_H => [0xCB#8, 0xFC#8]
  | .SET_7_L => [0xCB#8, 0xFD#8]
  | .SET_7_atHL => [0xCB#8, 0xFE#8]
  | .SET_7_A => [0xCB#8, 0xFF#8]

/-! ## The table's words -/

/-- The three bytes at the lowest addresses that a word of the opcode table stands for, zero above its bits. A
prefixed row's word is `{byte 0, byte 1}` (30_encoding.md section 3: "`0xCB40` is byte 0 = 0xCB, byte 1 = 0x40"),
so a 16-bit word whose upper byte is the prefix has that byte first; any other word has its low byte first (log 7). -/
def tableBytes (nbits w : Nat) : List Byte :=
  let v := w % 2 ^ nbits
  let b0 := BitVec.ofNat 8 v
  let b1 := BitVec.ofNat 8 (v / 256)
  let b2 := BitVec.ofNat 8 (v / 65536)
  if nbits = 16 ∧ b1 = prefixByte then [b1, b0, b2] else [b0, b1, b2]

/-- The instruction the decoder reads from a word of the opcode table (the host's question). -/
def decodeTableWord (nbits w : Nat) : Option Instr :=
  match decode (tableBytes nbits w) with
  | .ok (i, _) => some i
  | .error _ => none

end Sys2Proof
end

