-- ==== Sys2Proof/Machine/Bits.lean ====
section
/-! DEFINITION. Bit test, reset and set (45_bit.md R330 to R335). -/

namespace Sys2Proof.Machine

/-- R330: no register but F is written. -/
def opBitReg (b : Field3) (r : R8) (s : State) : State :=
  s.retire 2 2 (s.route routeBit (testBit8 (s.r8 r) b.val))

/-- R331: nothing is written to memory. -/
def opBitHl (b : Field3) (s : State) : State :=
  s.retire 2 3 (s.route routeBit (testBit8 (s.busRead s.hl) b.val))

/-- R332. -/
def opResReg (b : Field3) (r : R8) (s : State) : State :=
  s.retire 2 2 (s.setR8 r (setBit (s.r8 r) b.val false))

/-- R333: the write happens even when the value does not change. -/
def opResHl (b : Field3) (s : State) : State :=
  s.retire 2 4 (s.busWrite s.hl (setBit (s.busRead s.hl) b.val false))

/-- R334. -/
def opSetReg (b : Field3) (r : R8) (s : State) : State :=
  s.retire 2 2 (s.setR8 r (setBit (s.r8 r) b.val true))

/-- R335: the write happens even when the value does not change. -/
def opSetHl (b : Field3) (s : State) : State :=
  s.retire 2 4 (s.busWrite s.hl (setBit (s.busRead s.hl) b.val true))

/-- R330. -/
def execBIT_0_B (s : State) : Host.Outcome State Fault Refusal :=
  .next (opBitReg .f0 .B s)
/-- R330. -/
def execBIT_0_C (s : State) : Host.Outcome State Fault Refusal :=
  .next (opBitReg .f0 .C s)
/-- R330. -/
def execBIT_0_D (s : State) : Host.Outcome State Fault Refusal :=
  .next (opBitReg .f0 .D s)
/-- R330. -/
def execBIT_0_E (s : State) : Host.Outcome State Fault Refusal :=
  .next (opBitReg .f0 .E s)
/-- R330. -/
def execBIT_0_H (s : State) : Host.Outcome State Fault Refusal :=
  .next (opBitReg .f0 .H s)
/-- R330. -/
def execBIT_0_L (s : State) : Host.Outcome State Fault Refusal :=
  .next (opBitReg .f0 .L s)
/-- R331. -/
def execBIT_0_atHL (s : State) : Host.Outcome State Fault Refusal :=
  .next (opBitHl .f0 s)
/-- R330. -/
def execBIT_0_A (s : State) : Host.Outcome State Fault Refusal :=
  .next (opBitReg .f0 .A s)
/-- R330. -/
def execBIT_1_B (s : State) : Host.Outcome State Fault Refusal :=
  .next (opBitReg .f1 .B s)
/-- R330. -/
def execBIT_1_C (s : State) : Host.Outcome State Fault Refusal :=
  .next (opBitReg .f1 .C s)
/-- R330. -/
def execBIT_1_D (s : State) : Host.Outcome State Fault Refusal :=
  .next (opBitReg .f1 .D s)
/-- R330. -/
def execBIT_1_E (s : State) : Host.Outcome State Fault Refusal :=
  .next (opBitReg .f1 .E s)
/-- R330. -/
def execBIT_1_H (s : State) : Host.Outcome State Fault Refusal :=
  .next (opBitReg .f1 .H s)
/-- R330. -/
def execBIT_1_L (s : State) : Host.Outcome State Fault Refusal :=
  .next (opBitReg .f1 .L s)
/-- R331. -/
def execBIT_1_atHL (s : State) : Host.Outcome State Fault Refusal :=
  .next (opBitHl .f1 s)
/-- R330. -/
def execBIT_1_A (s : State) : Host.Outcome State Fault Refusal :=
  .next (opBitReg .f1 .A s)
/-- R330. -/
def execBIT_2_B (s : State) : Host.Outcome State Fault Refusal :=
  .next (opBitReg .f2 .B s)
/-- R330. -/
def execBIT_2_C (s : State) : Host.Outcome State Fault Refusal :=
  .next (opBitReg .f2 .C s)
/-- R330. -/
def execBIT_2_D (s : State) : Host.Outcome State Fault Refusal :=
  .next (opBitReg .f2 .D s)
/-- R330. -/
def execBIT_2_E (s : State) : Host.Outcome State Fault Refusal :=
  .next (opBitReg .f2 .E s)
/-- R330. -/
def execBIT_2_H (s : State) : Host.Outcome State Fault Refusal :=
  .next (opBitReg .f2 .H s)
/-- R330. -/
def execBIT_2_L (s : State) : Host.Outcome State Fault Refusal :=
  .next (opBitReg .f2 .L s)
/-- R331. -/
def execBIT_2_atHL (s : State) : Host.Outcome State Fault Refusal :=
  .next (opBitHl .f2 s)
/-- R330. -/
def execBIT_2_A (s : State) : Host.Outcome State Fault Refusal :=
  .next (opBitReg .f2 .A s)
/-- R330. -/
def execBIT_3_B (s : State) : Host.Outcome State Fault Refusal :=
  .next (opBitReg .f3 .B s)
/-- R330. -/
def execBIT_3_C (s : State) : Host.Outcome State Fault Refusal :=
  .next (opBitReg .f3 .C s)
/-- R330. -/
def execBIT_3_D (s : State) : Host.Outcome State Fault Refusal :=
  .next (opBitReg .f3 .D s)
/-- R330. -/
def execBIT_3_E (s : State) : Host.Outcome State Fault Refusal :=
  .next (opBitReg .f3 .E s)
/-- R330. -/
def execBIT_3_H (s : State) : Host.Outcome State Fault Refusal :=
  .next (opBitReg .f3 .H s)
/-- R330. -/
def execBIT_3_L (s : State) : Host.Outcome State Fault Refusal :=
  .next (opBitReg .f3 .L s)
/-- R331. -/
def execBIT_3_atHL (s : State) : Host.Outcome State Fault Refusal :=
  .next (opBitHl .f3 s)
/-- R330. -/
def execBIT_3_A (s : State) : Host.Outcome State Fault Refusal :=
  .next (opBitReg .f3 .A s)
/-- R330. -/
def execBIT_4_B (s : State) : Host.Outcome State Fault Refusal :=
  .next (opBitReg .f4 .B s)
/-- R330. -/
def execBIT_4_C (s : State) : Host.Outcome State Fault Refusal :=
  .next (opBitReg .f4 .C s)
/-- R330. -/
def execBIT_4_D (s : State) : Host.Outcome State Fault Refusal :=
  .next (opBitReg .f4 .D s)
/-- R330. -/
def execBIT_4_E (s : State) : Host.Outcome State Fault Refusal :=
  .next (opBitReg .f4 .E s)
/-- R330. -/
def execBIT_4_H (s : State) : Host.Outcome State Fault Refusal :=
  .next (opBitReg .f4 .H s)
/-- R330. -/
def execBIT_4_L (s : State) : Host.Outcome State Fault Refusal :=
  .next (opBitReg .f4 .L s)
/-- R331. -/
def execBIT_4_atHL (s : State) : Host.Outcome State Fault Refusal :=
  .next (opBitHl .f4 s)
/-- R330. -/
def execBIT_4_A (s : State) : Host.Outcome State Fault Refusal :=
  .next (opBitReg .f4 .A s)
/-- R330. -/
def execBIT_5_B (s : State) : Host.Outcome State Fault Refusal :=
  .next (opBitReg .f5 .B s)
/-- R330. -/
def execBIT_5_C (s : State) : Host.Outcome State Fault Refusal :=
  .next (opBitReg .f5 .C s)
/-- R330. -/
def execBIT_5_D (s : State) : Host.Outcome State Fault Refusal :=
  .next (opBitReg .f5 .D s)
/-- R330. -/
def execBIT_5_E (s : State) : Host.Outcome State Fault Refusal :=
  .next (opBitReg .f5 .E s)
/-- R330. -/
def execBIT_5_H (s : State) : Host.Outcome State Fault Refusal :=
  .next (opBitReg .f5 .H s)
/-- R330. -/
def execBIT_5_L (s : State) : Host.Outcome State Fault Refusal :=
  .next (opBitReg .f5 .L s)
/-- R331. -/
def execBIT_5_atHL (s : State) : Host.Outcome State Fault Refusal :=
  .next (opBitHl .f5 s)
/-- R330. -/
def execBIT_5_A (s : State) : Host.Outcome State Fault Refusal :=
  .next (opBitReg .f5 .A s)
/-- R330. -/
def execBIT_6_B (s : State) : Host.Outcome State Fault Refusal :=
  .next (opBitReg .f6 .B s)
/-- R330. -/
def execBIT_6_C (s : State) : Host.Outcome State Fault Refusal :=
  .next (opBitReg .f6 .C s)
/-- R330. -/
def execBIT_6_D (s : State) : Host.Outcome State Fault Refusal :=
  .next (opBitReg .f6 .D s)
/-- R330. -/
def execBIT_6_E (s : State) : Host.Outcome State Fault Refusal :=
  .next (opBitReg .f6 .E s)
/-- R330. -/
def execBIT_6_H (s : State) : Host.Outcome State Fault Refusal :=
  .next (opBitReg .f6 .H s)
/-- R330. -/
def execBIT_6_L (s : State) : Host.Outcome State Fault Refusal :=
  .next (opBitReg .f6 .L s)
/-- R331. -/
def execBIT_6_atHL (s : State) : Host.Outcome State Fault Refusal :=
  .next (opBitHl .f6 s)
/-- R330. -/
def execBIT_6_A (s : State) : Host.Outcome State Fault Refusal :=
  .next (opBitReg .f6 .A s)
/-- R330. -/
def execBIT_7_B (s : State) : Host.Outcome State Fault Refusal :=
  .next (opBitReg .f7 .B s)
/-- R330. -/
def execBIT_7_C (s : State) : Host.Outcome State Fault Refusal :=
  .next (opBitReg .f7 .C s)
/-- R330. -/
def execBIT_7_D (s : State) : Host.Outcome State Fault Refusal :=
  .next (opBitReg .f7 .D s)
/-- R330. -/
def execBIT_7_E (s : State) : Host.Outcome State Fault Refusal :=
  .next (opBitReg .f7 .E s)
/-- R330. -/
def execBIT_7_H (s : State) : Host.Outcome State Fault Refusal :=
  .next (opBitReg .f7 .H s)
/-- R330. -/
def execBIT_7_L (s : State) : Host.Outcome State Fault Refusal :=
  .next (opBitReg .f7 .L s)
/-- R331. -/
def execBIT_7_atHL (s : State) : Host.Outcome State Fault Refusal :=
  .next (opBitHl .f7 s)
/-- R330. -/
def execBIT_7_A (s : State) : Host.Outcome State Fault Refusal :=
  .next (opBitReg .f7 .A s)
/-- R332. -/
def execRES_0_B (s : State) : Host.Outcome State Fault Refusal :=
  .next (opResReg .f0 .B s)
/-- R332. -/
def execRES_0_C (s : State) : Host.Outcome State Fault Refusal :=
  .next (opResReg .f0 .C s)
/-- R332. -/
def execRES_0_D (s : State) : Host.Outcome State Fault Refusal :=
  .next (opResReg .f0 .D s)
/-- R332. -/
def execRES_0_E (s : State) : Host.Outcome State Fault Refusal :=
  .next (opResReg .f0 .E s)
/-- R332. -/
def execRES_0_H (s : State) : Host.Outcome State Fault Refusal :=
  .next (opResReg .f0 .H s)
/-- R332. -/
def execRES_0_L (s : State) : Host.Outcome State Fault Refusal :=
  .next (opResReg .f0 .L s)
/-- R333. -/
def execRES_0_atHL (s : State) : Host.Outcome State Fault Refusal :=
  .next (opResHl .f0 s)
/-- R332. -/
def execRES_0_A (s : State) : Host.Outcome State Fault Refusal :=
  .next (opResReg .f0 .A s)
/-- R332. -/
def execRES_1_B (s : State) : Host.Outcome State Fault Refusal :=
  .next (opResReg .f1 .B s)
/-- R332. -/
def execRES_1_C (s : State) : Host.Outcome State Fault Refusal :=
  .next (opResReg .f1 .C s)
/-- R332. -/
def execRES_1_D (s : State) : Host.Outcome State Fault Refusal :=
  .next (opResReg .f1 .D s)
/-- R332. -/
def execRES_1_E (s : State) : Host.Outcome State Fault Refusal :=
  .next (opResReg .f1 .E s)
/-- R332. -/
def execRES_1_H (s : State) : Host.Outcome State Fault Refusal :=
  .next (opResReg .f1 .H s)
/-- R332. -/
def execRES_1_L (s : State) : Host.Outcome State Fault Refusal :=
  .next (opResReg .f1 .L s)
/-- R333. -/
def execRES_1_atHL (s : State) : Host.Outcome State Fault Refusal :=
  .next (opResHl .f1 s)
/-- R332. -/
def execRES_1_A (s : State) : Host.Outcome State Fault Refusal :=
  .next (opResReg .f1 .A s)
/-- R332. -/
def execRES_2_B (s : State) : Host.Outcome State Fault Refusal :=
  .next (opResReg .f2 .B s)
/-- R332. -/
def execRES_2_C (s : State) : Host.Outcome State Fault Refusal :=
  .next (opResReg .f2 .C s)
/-- R332. -/
def execRES_2_D (s : State) : Host.Outcome State Fault Refusal :=
  .next (opResReg .f2 .D s)
/-- R332. -/
def execRES_2_E (s : State) : Host.Outcome State Fault Refusal :=
  .next (opResReg .f2 .E s)
/-- R332. -/
def execRES_2_H (s : State) : Host.Outcome State Fault Refusal :=
  .next (opResReg .f2 .H s)
/-- R332. -/
def execRES_2_L (s : State) : Host.Outcome State Fault Refusal :=
  .next (opResReg .f2 .L s)
/-- R333. -/
def execRES_2_atHL (s : State) : Host.Outcome State Fault Refusal :=
  .next (opResHl .f2 s)
/-- R332. -/
def execRES_2_A (s : State) : Host.Outcome State Fault Refusal :=
  .next (opResReg .f2 .A s)
/-- R332. -/
def execRES_3_B (s : State) : Host.Outcome State Fault Refusal :=
  .next (opResReg .f3 .B s)
/-- R332. -/
def execRES_3_C (s : State) : Host.Outcome State Fault Refusal :=
  .next (opResReg .f3 .C s)
/-- R332. -/
def execRES_3_D (s : State) : Host.Outcome State Fault Refusal :=
  .next (opResReg .f3 .D s)
/-- R332. -/
def execRES_3_E (s : State) : Host.Outcome State Fault Refusal :=
  .next (opResReg .f3 .E s)
/-- R332. -/
def execRES_3_H (s : State) : Host.Outcome State Fault Refusal :=
  .next (opResReg .f3 .H s)
/-- R332. -/
def execRES_3_L (s : State) : Host.Outcome State Fault Refusal :=
  .next (opResReg .f3 .L s)
/-- R333. -/
def execRES_3_atHL (s : State) : Host.Outcome State Fault Refusal :=
  .next (opResHl .f3 s)
/-- R332. -/
def execRES_3_A (s : State) : Host.Outcome State Fault Refusal :=
  .next (opResReg .f3 .A s)
/-- R332. -/
def execRES_4_B (s : State) : Host.Outcome State Fault Refusal :=
  .next (opResReg .f4 .B s)
/-- R332. -/
def execRES_4_C (s : State) : Host.Outcome State Fault Refusal :=
  .next (opResReg .f4 .C s)
/-- R332. -/
def execRES_4_D (s : State) : Host.Outcome State Fault Refusal :=
  .next (opResReg .f4 .D s)
/-- R332. -/
def execRES_4_E (s : State) : Host.Outcome State Fault Refusal :=
  .next (opResReg .f4 .E s)
/-- R332. -/
def execRES_4_H (s : State) : Host.Outcome State Fault Refusal :=
  .next (opResReg .f4 .H s)
/-- R332. -/
def execRES_4_L (s : State) : Host.Outcome State Fault Refusal :=
  .next (opResReg .f4 .L s)
/-- R333. -/
def execRES_4_atHL (s : State) : Host.Outcome State Fault Refusal :=
  .next (opResHl .f4 s)
/-- R332. -/
def execRES_4_A (s : State) : Host.Outcome State Fault Refusal :=
  .next (opResReg .f4 .A s)
/-- R332. -/
def execRES_5_B (s : State) : Host.Outcome State Fault Refusal :=
  .next (opResReg .f5 .B s)
/-- R332. -/
def execRES_5_C (s : State) : Host.Outcome State Fault Refusal :=
  .next (opResReg .f5 .C s)
/-- R332. -/
def execRES_5_D (s : State) : Host.Outcome State Fault Refusal :=
  .next (opResReg .f5 .D s)
/-- R332. -/
def execRES_5_E (s : State) : Host.Outcome State Fault Refusal :=
  .next (opResReg .f5 .E s)
/-- R332. -/
def execRES_5_H (s : State) : Host.Outcome State Fault Refusal :=
  .next (opResReg .f5 .H s)
/-- R332. -/
def execRES_5_L (s : State) : Host.Outcome State Fault Refusal :=
  .next (opResReg .f5 .L s)
/-- R333. -/
def execRES_5_atHL (s : State) : Host.Outcome State Fault Refusal :=
  .next (opResHl .f5 s)
/-- R332. -/
def execRES_5_A (s : State) : Host.Outcome State Fault Refusal :=
  .next (opResReg .f5 .A s)
/-- R332. -/
def execRES_6_B (s : State) : Host.Outcome State Fault Refusal :=
  .next (opResReg .f6 .B s)
/-- R332. -/
def execRES_6_C (s : State) : Host.Outcome State Fault Refusal :=
  .next (opResReg .f6 .C s)
/-- R332. -/
def execRES_6_D (s : State) : Host.Outcome State Fault Refusal :=
  .next (opResReg .f6 .D s)
/-- R332. -/
def execRES_6_E (s : State) : Host.Outcome State Fault Refusal :=
  .next (opResReg .f6 .E s)
/-- R332. -/
def execRES_6_H (s : State) : Host.Outcome State Fault Refusal :=
  .next (opResReg .f6 .H s)
/-- R332. -/
def execRES_6_L (s : State) : Host.Outcome State Fault Refusal :=
  .next (opResReg .f6 .L s)
/-- R333. -/
def execRES_6_atHL (s : State) : Host.Outcome State Fault Refusal :=
  .next (opResHl .f6 s)
/-- R332. -/
def execRES_6_A (s : State) : Host.Outcome State Fault Refusal :=
  .next (opResReg .f6 .A s)
/-- R332. -/
def execRES_7_B (s : State) : Host.Outcome State Fault Refusal :=
  .next (opResReg .f7 .B s)
/-- R332. -/
def execRES_7_C (s : State) : Host.Outcome State Fault Refusal :=
  .next (opResReg .f7 .C s)
/-- R332. -/
def execRES_7_D (s : State) : Host.Outcome State Fault Refusal :=
  .next (opResReg .f7 .D s)
/-- R332. -/
def execRES_7_E (s : State) : Host.Outcome State Fault Refusal :=
  .next (opResReg .f7 .E s)
/-- R332. -/
def execRES_7_H (s : State) : Host.Outcome State Fault Refusal :=
  .next (opResReg .f7 .H s)
/-- R332. -/
def execRES_7_L (s : State) : Host.Outcome State Fault Refusal :=
  .next (opResReg .f7 .L s)
/-- R333. -/
def execRES_7_atHL (s : State) : Host.Outcome State Fault Refusal :=
  .next (opResHl .f7 s)
/-- R332. -/
def execRES_7_A (s : State) : Host.Outcome State Fault Refusal :=
  .next (opResReg .f7 .A s)
/-- R334. -/
def execSET_0_B (s : State) : Host.Outcome State Fault Refusal :=
  .next (opSetReg .f0 .B s)
/-- R334. -/
def execSET_0_C (s : State) : Host.Outcome State Fault Refusal :=
  .next (opSetReg .f0 .C s)
/-- R334. -/
def execSET_0_D (s : State) : Host.Outcome State Fault Refusal :=
  .next (opSetReg .f0 .D s)
/-- R334. -/
def execSET_0_E (s : State) : Host.Outcome State Fault Refusal :=
  .next (opSetReg .f0 .E s)
/-- R334. -/
def execSET_0_H (s : State) : Host.Outcome State Fault Refusal :=
  .next (opSetReg .f0 .H s)
/-- R334. -/
def execSET_0_L (s : State) : Host.Outcome State Fault Refusal :=
  .next (opSetReg .f0 .L s)
/-- R335. -/
def execSET_0_atHL (s : State) : Host.Outcome State Fault Refusal :=
  .next (opSetHl .f0 s)
/-- R334. -/
def execSET_0_A (s : State) : Host.Outcome State Fault Refusal :=
  .next (opSetReg .f0 .A s)
/-- R334. -/
def execSET_1_B (s : State) : Host.Outcome State Fault Refusal :=
  .next (opSetReg .f1 .B s)
/-- R334. -/
def execSET_1_C (s : State) : Host.Outcome State Fault Refusal :=
  .next (opSetReg .f1 .C s)
/-- R334. -/
def execSET_1_D (s : State) : Host.Outcome State Fault Refusal :=
  .next (opSetReg .f1 .D s)
/-- R334. -/
def execSET_1_E (s : State) : Host.Outcome State Fault Refusal :=
  .next (opSetReg .f1 .E s)
/-- R334. -/
def execSET_1_H (s : State) : Host.Outcome State Fault Refusal :=
  .next (opSetReg .f1 .H s)
/-- R334. -/
def execSET_1_L (s : State) : Host.Outcome State Fault Refusal :=
  .next (opSetReg .f1 .L s)
/-- R335. -/
def execSET_1_atHL (s : State) : Host.Outcome State Fault Refusal :=
  .next (opSetHl .f1 s)
/-- R334. -/
def execSET_1_A (s : State) : Host.Outcome State Fault Refusal :=
  .next (opSetReg .f1 .A s)
/-- R334. -/
def execSET_2_B (s : State) : Host.Outcome State Fault Refusal :=
  .next (opSetReg .f2 .B s)
/-- R334. -/
def execSET_2_C (s : State) : Host.Outcome State Fault Refusal :=
  .next (opSetReg .f2 .C s)
/-- R334. -/
def execSET_2_D (s : State) : Host.Outcome State Fault Refusal :=
  .next (opSetReg .f2 .D s)
/-- R334. -/
def execSET_2_E (s : State) : Host.Outcome State Fault Refusal :=
  .next (opSetReg .f2 .E s)
/-- R334. -/
def execSET_2_H (s : State) : Host.Outcome State Fault Refusal :=
  .next (opSetReg .f2 .H s)
/-- R334. -/
def execSET_2_L (s : State) : Host.Outcome State Fault Refusal :=
  .next (opSetReg .f2 .L s)
/-- R335. -/
def execSET_2_atHL (s : State) : Host.Outcome State Fault Refusal :=
  .next (opSetHl .f2 s)
/-- R334. -/
def execSET_2_A (s : State) : Host.Outcome State Fault Refusal :=
  .next (opSetReg .f2 .A s)
/-- R334. -/
def execSET_3_B (s : State) : Host.Outcome State Fault Refusal :=
  .next (opSetReg .f3 .B s)
/-- R334. -/
def execSET_3_C (s : State) : Host.Outcome State Fault Refusal :=
  .next (opSetReg .f3 .C s)
/-- R334. -/
def execSET_3_D (s : State) : Host.Outcome State Fault Refusal :=
  .next (opSetReg .f3 .D s)
/-- R334. -/
def execSET_3_E (s : State) : Host.Outcome State Fault Refusal :=
  .next (opSetReg .f3 .E s)
/-- R334. -/
def execSET_3_H (s : State) : Host.Outcome State Fault Refusal :=
  .next (opSetReg .f3 .H s)
/-- R334. -/
def execSET_3_L (s : State) : Host.Outcome State Fault Refusal :=
  .next (opSetReg .f3 .L s)
/-- R335. -/
def execSET_3_atHL (s : State) : Host.Outcome State Fault Refusal :=
  .next (opSetHl .f3 s)
/-- R334. -/
def execSET_3_A (s : State) : Host.Outcome State Fault Refusal :=
  .next (opSetReg .f3 .A s)
/-- R334. -/
def execSET_4_B (s : State) : Host.Outcome State Fault Refusal :=
  .next (opSetReg .f4 .B s)
/-- R334. -/
def execSET_4_C (s : State) : Host.Outcome State Fault Refusal :=
  .next (opSetReg .f4 .C s)
/-- R334. -/
def execSET_4_D (s : State) : Host.Outcome State Fault Refusal :=
  .next (opSetReg .f4 .D s)
/-- R334. -/
def execSET_4_E (s : State) : Host.Outcome State Fault Refusal :=
  .next (opSetReg .f4 .E s)
/-- R334. -/
def execSET_4_H (s : State) : Host.Outcome State Fault Refusal :=
  .next (opSetReg .f4 .H s)
/-- R334. -/
def execSET_4_L (s : State) : Host.Outcome State Fault Refusal :=
  .next (opSetReg .f4 .L s)
/-- R335. -/
def execSET_4_atHL (s : State) : Host.Outcome State Fault Refusal :=
  .next (opSetHl .f4 s)
/-- R334. -/
def execSET_4_A (s : State) : Host.Outcome State Fault Refusal :=
  .next (opSetReg .f4 .A s)
/-- R334. -/
def execSET_5_B (s : State) : Host.Outcome State Fault Refusal :=
  .next (opSetReg .f5 .B s)
/-- R334. -/
def execSET_5_C (s : State) : Host.Outcome State Fault Refusal :=
  .next (opSetReg .f5 .C s)
/-- R334. -/
def execSET_5_D (s : State) : Host.Outcome State Fault Refusal :=
  .next (opSetReg .f5 .D s)
/-- R334. -/
def execSET_5_E (s : State) : Host.Outcome State Fault Refusal :=
  .next (opSetReg .f5 .E s)
/-- R334. -/
def execSET_5_H (s : State) : Host.Outcome State Fault Refusal :=
  .next (opSetReg .f5 .H s)
/-- R334. -/
def execSET_5_L (s : State) : Host.Outcome State Fault Refusal :=
  .next (opSetReg .f5 .L s)
/-- R335. -/
def execSET_5_atHL (s : State) : Host.Outcome State Fault Refusal :=
  .next (opSetHl .f5 s)
/-- R334. -/
def execSET_5_A (s : State) : Host.Outcome State Fault Refusal :=
  .next (opSetReg .f5 .A s)
/-- R334. -/
def execSET_6_B (s : State) : Host.Outcome State Fault Refusal :=
  .next (opSetReg .f6 .B s)
/-- R334. -/
def execSET_6_C (s : State) : Host.Outcome State Fault Refusal :=
  .next (opSetReg .f6 .C s)
/-- R334. -/
def execSET_6_D (s : State) : Host.Outcome State Fault Refusal :=
  .next (opSetReg .f6 .D s)
/-- R334. -/
def execSET_6_E (s : State) : Host.Outcome State Fault Refusal :=
  .next (opSetReg .f6 .E s)
/-- R334. -/
def execSET_6_H (s : State) : Host.Outcome State Fault Refusal :=
  .next (opSetReg .f6 .H s)
/-- R334. -/
def execSET_6_L (s : State) : Host.Outcome State Fault Refusal :=
  .next (opSetReg .f6 .L s)
/-- R335. -/
def execSET_6_atHL (s : State) : Host.Outcome State Fault Refusal :=
  .next (opSetHl .f6 s)
/-- R334. -/
def execSET_6_A (s : State) : Host.Outcome State Fault Refusal :=
  .next (opSetReg .f6 .A s)
/-- R334. -/
def execSET_7_B (s : State) : Host.Outcome State Fault Refusal :=
  .next (opSetReg .f7 .B s)
/-- R334. -/
def execSET_7_C (s : State) : Host.Outcome State Fault Refusal :=
  .next (opSetReg .f7 .C s)
/-- R334. -/
def execSET_7_D (s : State) : Host.Outcome State Fault Refusal :=
  .next (opSetReg .f7 .D s)
/-- R334. -/
def execSET_7_E (s : State) : Host.Outcome State Fault Refusal :=
  .next (opSetReg .f7 .E s)
/-- R334. -/
def execSET_7_H (s : State) : Host.Outcome State Fault Refusal :=
  .next (opSetReg .f7 .H s)
/-- R334. -/
def execSET_7_L (s : State) : Host.Outcome State Fault Refusal :=
  .next (opSetReg .f7 .L s)
/-- R335. -/
def execSET_7_atHL (s : State) : Host.Outcome State Fault Refusal :=
  .next (opSetHl .f7 s)
/-- R334. -/
def execSET_7_A (s : State) : Host.Outcome State Fault Refusal :=
  .next (opSetReg .f7 .A s)

end Sys2Proof.Machine
end

