-- ==== Sys2Proof/Machine/Rotates.lean ====
section
/-! DEFINITION. Rotates, shifts and swap (44_rotate_shift.md R300 to R319). -/

namespace Sys2Proof.Machine

/-- R300 to R303: the accumulator forms; Z is forced to 0. -/
def opRotA (k : RotOp) (s : State) : State :=
  let x := rotResult k (s.r8 .A) s.flagC
  s.retire 1 1 ((s.setR8 .A x.v).route routeRotA x)

/-- R304, R306, R308, R310, R312, R314, R316, R318. -/
def opRotReg (k : RotOp) (r : R8) (s : State) : State :=
  let x := rotResult k (s.r8 r) s.flagC
  s.retire 2 2 ((s.setR8 r x.v).route (rotRouting k) x)

/-- R305, R307, R309, R311, R313, R315, R317, R319: one read, then one write. -/
def opRotHl (k : RotOp) (s : State) : State :=
  let x := rotResult k (s.busRead s.hl) s.flagC
  s.retire 2 4 ((s.busWrite s.hl x.v).route (rotRouting k) x)

/-- R300. -/
def execRLCA (s : State) : Host.Outcome State Fault Refusal :=
  .next (opRotA .RLC s)
/-- R301. -/
def execRRCA (s : State) : Host.Outcome State Fault Refusal :=
  .next (opRotA .RRC s)
/-- R302. -/
def execRLA (s : State) : Host.Outcome State Fault Refusal :=
  .next (opRotA .RL s)
/-- R303. -/
def execRRA (s : State) : Host.Outcome State Fault Refusal :=
  .next (opRotA .RR s)
/-- R304. -/
def execRLC_B (s : State) : Host.Outcome State Fault Refusal :=
  .next (opRotReg .RLC .B s)
/-- R304. -/
def execRLC_C (s : State) : Host.Outcome State Fault Refusal :=
  .next (opRotReg .RLC .C s)
/-- R304. -/
def execRLC_D (s : State) : Host.Outcome State Fault Refusal :=
  .next (opRotReg .RLC .D s)
/-- R304. -/
def execRLC_E (s : State) : Host.Outcome State Fault Refusal :=
  .next (opRotReg .RLC .E s)
/-- R304. -/
def execRLC_H (s : State) : Host.Outcome State Fault Refusal :=
  .next (opRotReg .RLC .H s)
/-- R304. -/
def execRLC_L (s : State) : Host.Outcome State Fault Refusal :=
  .next (opRotReg .RLC .L s)
/-- R305. -/
def execRLC_atHL (s : State) : Host.Outcome State Fault Refusal :=
  .next (opRotHl .RLC s)
/-- R304. -/
def execRLC_A (s : State) : Host.Outcome State Fault Refusal :=
  .next (opRotReg .RLC .A s)
/-- R306. -/
def execRRC_B (s : State) : Host.Outcome State Fault Refusal :=
  .next (opRotReg .RRC .B s)
/-- R306. -/
def execRRC_C (s : State) : Host.Outcome State Fault Refusal :=
  .next (opRotReg .RRC .C s)
/-- R306. -/
def execRRC_D (s : State) : Host.Outcome State Fault Refusal :=
  .next (opRotReg .RRC .D s)
/-- R306. -/
def execRRC_E (s : State) : Host.Outcome State Fault Refusal :=
  .next (opRotReg .RRC .E s)
/-- R306. -/
def execRRC_H (s : State) : Host.Outcome State Fault Refusal :=
  .next (opRotReg .RRC .H s)
/-- R306. -/
def execRRC_L (s : State) : Host.Outcome State Fault Refusal :=
  .next (opRotReg .RRC .L s)
/-- R307. -/
def execRRC_atHL (s : State) : Host.Outcome State Fault Refusal :=
  .next (opRotHl .RRC s)
/-- R306. -/
def execRRC_A (s : State) : Host.Outcome State Fault Refusal :=
  .next (opRotReg .RRC .A s)
/-- R308. -/
def execRL_B (s : State) : Host.Outcome State Fault Refusal :=
  .next (opRotReg .RL .B s)
/-- R308. -/
def execRL_C (s : State) : Host.Outcome State Fault Refusal :=
  .next (opRotReg .RL .C s)
/-- R308. -/
def execRL_D (s : State) : Host.Outcome State Fault Refusal :=
  .next (opRotReg .RL .D s)
/-- R308. -/
def execRL_E (s : State) : Host.Outcome State Fault Refusal :=
  .next (opRotReg .RL .E s)
/-- R308. -/
def execRL_H (s : State) : Host.Outcome State Fault Refusal :=
  .next (opRotReg .RL .H s)
/-- R308. -/
def execRL_L (s : State) : Host.Outcome State Fault Refusal :=
  .next (opRotReg .RL .L s)
/-- R309. -/
def execRL_atHL (s : State) : Host.Outcome State Fault Refusal :=
  .next (opRotHl .RL s)
/-- R308. -/
def execRL_A (s : State) : Host.Outcome State Fault Refusal :=
  .next (opRotReg .RL .A s)
/-- R310. -/
def execRR_B (s : State) : Host.Outcome State Fault Refusal :=
  .next (opRotReg .RR .B s)
/-- R310. -/
def execRR_C (s : State) : Host.Outcome State Fault Refusal :=
  .next (opRotReg .RR .C s)
/-- R310. -/
def execRR_D (s : State) : Host.Outcome State Fault Refusal :=
  .next (opRotReg .RR .D s)
/-- R310. -/
def execRR_E (s : State) : Host.Outcome State Fault Refusal :=
  .next (opRotReg .RR .E s)
/-- R310. -/
def execRR_H (s : State) : Host.Outcome State Fault Refusal :=
  .next (opRotReg .RR .H s)
/-- R310. -/
def execRR_L (s : State) : Host.Outcome State Fault Refusal :=
  .next (opRotReg .RR .L s)
/-- R311. -/
def execRR_atHL (s : State) : Host.Outcome State Fault Refusal :=
  .next (opRotHl .RR s)
/-- R310. -/
def execRR_A (s : State) : Host.Outcome State Fault Refusal :=
  .next (opRotReg .RR .A s)
/-- R312. -/
def execSLA_B (s : State) : Host.Outcome State Fault Refusal :=
  .next (opRotReg .SLA .B s)
/-- R312. -/
def execSLA_C (s : State) : Host.Outcome State Fault Refusal :=
  .next (opRotReg .SLA .C s)
/-- R312. -/
def execSLA_D (s : State) : Host.Outcome State Fault Refusal :=
  .next (opRotReg .SLA .D s)
/-- R312. -/
def execSLA_E (s : State) : Host.Outcome State Fault Refusal :=
  .next (opRotReg .SLA .E s)
/-- R312. -/
def execSLA_H (s : State) : Host.Outcome State Fault Refusal :=
  .next (opRotReg .SLA .H s)
/-- R312. -/
def execSLA_L (s : State) : Host.Outcome State Fault Refusal :=
  .next (opRotReg .SLA .L s)
/-- R313. -/
def execSLA_atHL (s : State) : Host.Outcome State Fault Refusal :=
  .next (opRotHl .SLA s)
/-- R312. -/
def execSLA_A (s : State) : Host.Outcome State Fault Refusal :=
  .next (opRotReg .SLA .A s)
/-- R314. -/
def execSRA_B (s : State) : Host.Outcome State Fault Refusal :=
  .next (opRotReg .SRA .B s)
/-- R314. -/
def execSRA_C (s : State) : Host.Outcome State Fault Refusal :=
  .next (opRotReg .SRA .C s)
/-- R314. -/
def execSRA_D (s : State) : Host.Outcome State Fault Refusal :=
  .next (opRotReg .SRA .D s)
/-- R314. -/
def execSRA_E (s : State) : Host.Outcome State Fault Refusal :=
  .next (opRotReg .SRA .E s)
/-- R314. -/
def execSRA_H (s : State) : Host.Outcome State Fault Refusal :=
  .next (opRotReg .SRA .H s)
/-- R314. -/
def execSRA_L (s : State) : Host.Outcome State Fault Refusal :=
  .next (opRotReg .SRA .L s)
/-- R315. -/
def execSRA_atHL (s : State) : Host.Outcome State Fault Refusal :=
  .next (opRotHl .SRA s)
/-- R314. -/
def execSRA_A (s : State) : Host.Outcome State Fault Refusal :=
  .next (opRotReg .SRA .A s)
/-- R316. -/
def execSWAP_B (s : State) : Host.Outcome State Fault Refusal :=
  .next (opRotReg .SWAP .B s)
/-- R316. -/
def execSWAP_C (s : State) : Host.Outcome State Fault Refusal :=
  .next (opRotReg .SWAP .C s)
/-- R316. -/
def execSWAP_D (s : State) : Host.Outcome State Fault Refusal :=
  .next (opRotReg .SWAP .D s)
/-- R316. -/
def execSWAP_E (s : State) : Host.Outcome State Fault Refusal :=
  .next (opRotReg .SWAP .E s)
/-- R316. -/
def execSWAP_H (s : State) : Host.Outcome State Fault Refusal :=
  .next (opRotReg .SWAP .H s)
/-- R316. -/
def execSWAP_L (s : State) : Host.Outcome State Fault Refusal :=
  .next (opRotReg .SWAP .L s)
/-- R317. -/
def execSWAP_atHL (s : State) : Host.Outcome State Fault Refusal :=
  .next (opRotHl .SWAP s)
/-- R316. -/
def execSWAP_A (s : State) : Host.Outcome State Fault Refusal :=
  .next (opRotReg .SWAP .A s)
/-- R318. -/
def execSRL_B (s : State) : Host.Outcome State Fault Refusal :=
  .next (opRotReg .SRL .B s)
/-- R318. -/
def execSRL_C (s : State) : Host.Outcome State Fault Refusal :=
  .next (opRotReg .SRL .C s)
/-- R318. -/
def execSRL_D (s : State) : Host.Outcome State Fault Refusal :=
  .next (opRotReg .SRL .D s)
/-- R318. -/
def execSRL_E (s : State) : Host.Outcome State Fault Refusal :=
  .next (opRotReg .SRL .E s)
/-- R318. -/
def execSRL_H (s : State) : Host.Outcome State Fault Refusal :=
  .next (opRotReg .SRL .H s)
/-- R318. -/
def execSRL_L (s : State) : Host.Outcome State Fault Refusal :=
  .next (opRotReg .SRL .L s)
/-- R319. -/
def execSRL_atHL (s : State) : Host.Outcome State Fault Refusal :=
  .next (opRotHl .SRL s)
/-- R318. -/
def execSRL_A (s : State) : Host.Outcome State Fault Refusal :=
  .next (opRotReg .SRL .A s)

end Sys2Proof.Machine
end

