-- ==== Sys2Proof/Machine/Prefix.lean ====
section
/-! DEFINITION. The row of the prefix byte (30_encoding.md R124). It is no instruction: "prefix and selecting byte
are fetched and executed in one step". As a row of the table its effect is that step: the byte after the prefix
selects one of the 256 prefixed instructions, by the fields of R133. -/

namespace Sys2Proof.Machine

/-- R133 on registers: the prefixed instruction of the byte `b` whose r8 code names `r`. -/
def opPrefixedReg (b : Byte) (r : R8) (s : State) : State :=
  match fieldX b with
  | 0 => opRotReg (RotOp.ofCode (fieldY b)) r s
  | 1 => opBitReg (Field3.ofCode (fieldY b)) r s
  | 2 => opResReg (Field3.ofCode (fieldY b)) r s
  | _ => opSetReg (Field3.ofCode (fieldY b)) r s

/-- R133 on `(HL)`. -/
def opPrefixedHl (b : Byte) (s : State) : State :=
  match fieldX b with
  | 0 => opRotHl (RotOp.ofCode (fieldY b)) s
  | 1 => opBitHl (Field3.ofCode (fieldY b)) s
  | 2 => opResHl (Field3.ofCode (fieldY b)) s
  | _ => opSetHl (Field3.ofCode (fieldY b)) s

/-- R120, R133: the prefixed instruction that the byte `b` selects. -/
def opPrefixed (b : Byte) (s : State) : State :=
  match R8.ofCode (fieldZ b) with
  | some r => opPrefixedReg b r s
  | none => opPrefixedHl b s

/-- R124. -/
def execPREFIX_CB (s : State) : Host.Outcome State Fault Refusal :=
  .next (opPrefixed (s.busRead (s.pc + 1#16)) s)

end Sys2Proof.Machine
end

