-- ==== Sys2Proof/Machine/Dispatch.lean ====
section
/-! DEFINITION. Dispatch: one arm per constructor of Instr, one call of its meaning. -/

namespace Sys2Proof.Machine

def exec (i : Instr) (s : State) : Host.Outcome State Fault Refusal :=
  match i with
  | .NOP => Sys2Proof.Machine.execNOP s
  | .LD_BC_n16 n => Sys2Proof.Machine.execLD_BC_n16 n s
  | .LD_atBC_A => Sys2Proof.Machine.execLD_atBC_A s
  | .INC_BC => Sys2Proof.Machine.execINC_BC s
  | .INC_B => Sys2Proof.Machine.execINC_B s
  | .DEC_B => Sys2Proof.Machine.execDEC_B s
  | .LD_B_n8 n => Sys2Proof.Machine.execLD_B_n8 n s
  | .RLCA => Sys2Proof.Machine.execRLCA s
  | .LD_atn16_SP n => Sys2Proof.Machine.execLD_atn16_SP n s
  | .ADD_HL_BC => Sys2Proof.Machine.execADD_HL_BC s
  | .LD_A_atBC => Sys2Proof.Machine.execLD_A_atBC s
  | .DEC_BC => Sys2Proof.Machine.execDEC_BC s
  | .INC_C => Sys2Proof.Machine.execINC_C s
  | .DEC_C => Sys2Proof.Machine.execDEC_C s
  | .LD_C_n8 n => Sys2Proof.Machine.execLD_C_n8 n s
  | .RRCA => Sys2Proof.Machine.execRRCA s
  | .STOP => Sys2Proof.Machine.execSTOP s
  | .LD_DE_n16 n => Sys2Proof.Machine.execLD_DE_n16 n s
  | .LD_atDE_A => Sys2Proof.Machine.execLD_atDE_A s
  | .INC_DE => Sys2Proof.Machine.execINC_DE s
  | .INC_D => Sys2Proof.Machine.execINC_D s
  | .DEC_D => Sys2Proof.Machine.execDEC_D s
  | .LD_D_n8 n => Sys2Proof.Machine.execLD_D_n8 n s
  | .RLA => Sys2Proof.Machine.execRLA s
  | .JR_e8 e => Sys2Proof.Machine.execJR_e8 e s
  | .ADD_HL_DE => Sys2Proof.Machine.execADD_HL_DE s
  | .LD_A_atDE => Sys2Proof.Machine.execLD_A_atDE s
  | .DEC_DE => Sys2Proof.Machine.execDEC_DE s
  | .INC_E => Sys2Proof.Machine.execINC_E s
  | .DEC_E => Sys2Proof.Machine.execDEC_E s
  | .LD_E_n8 n => Sys2Proof.Machine.execLD_E_n8 n s
  | .RRA => Sys2Proof.Machine.execRRA s
  | .JR_NZ_e8 e => Sys2Proof.Machine.execJR_NZ_e8 e s
  | .LD_HL_n16 n => Sys2Proof.Machine.execLD_HL_n16 n s
  | .LD_atHLinc_A => Sys2Proof.Machine.execLD_atHLinc_A s
  | .INC_HL => Sys2Proof.Machine.execINC_HL s
  | .INC_H => Sys2Proof.Machine.execINC_H s
  | .DEC_H => Sys2Proof.Machine.execDEC_H s
  | .LD_H_n8 n => Sys2Proof.Machine.execLD_H_n8 n s
  | .DAA => Sys2Proof.Machine.execDAA s
  | .JR_Z_e8 e => Sys2Proof.Machine.execJR_Z_e8 e s
  | .ADD_HL_HL => Sys2Proof.Machine.execADD_HL_HL s
  | .LD_A_atHLinc => Sys2Proof.Machine.execLD_A_atHLinc s
  | .DEC_HL => Sys2Proof.Machine.execDEC_HL s
  | .INC_L => Sys2Proof.Machine.execINC_L s
  | .DEC_L => Sys2Proof.Machine.execDEC_L s
  | .LD_L_n8 n => Sys2Proof.Machine.execLD_L_n8 n s
  | .CPL => Sys2Proof.Machine.execCPL s
  | .JR_NC_e8 e => Sys2Proof.Machine.execJR_NC_e8 e s
  | .LD_SP_n16 n => Sys2Proof.Machine.execLD_SP_n16 n s
  | .LD_atHLdec_A => Sys2Proof.Machine.execLD_atHLdec_A s
  | .INC_SP => Sys2Proof.Machine.execINC_SP s
  | .INC_atHL => Sys2Proof.Machine.execINC_atHL s
  | .DEC_atHL => Sys2Proof.Machine.execDEC_atHL s
  | .LD_atHL_n8 n => Sys2Proof.Machine.execLD_atHL_n8 n s
  | .SCF => Sys2Proof.Machine.execSCF s
  | .JR_C_e8 e => Sys2Proof.Machine.execJR_C_e8 e s
  | .ADD_HL_SP => Sys2Proof.Machine.execADD_HL_SP s
  | .LD_A_atHLdec => Sys2Proof.Machine.execLD_A_atHLdec s
  | .DEC_SP => Sys2Proof.Machine.execDEC_SP s
  | .INC_A => Sys2Proof.Machine.execINC_A s
  | .DEC_A => Sys2Proof.Machine.execDEC_A s
  | .LD_A_n8 n => Sys2Proof.Machine.execLD_A_n8 n s
  | .CCF => Sys2Proof.Machine.execCCF s
  | .LD_B_B => Sys2Proof.Machine.execLD_B_B s
  | .LD_B_C => Sys2Proof.Machine.execLD_B_C s
  | .LD_B_D => Sys2Proof.Machine.execLD_B_D s
  | .LD_B_E => Sys2Proof.Machine.execLD_B_E s
  | .LD_B_H => Sys2Proof.Machine.execLD_B_H s
  | .LD_B_L => Sys2Proof.Machine.execLD_B_L s
  | .LD_B_atHL => Sys2Proof.Machine.execLD_B_atHL s
  | .LD_B_A => Sys2Proof.Machine.execLD_B_A s
  | .LD_C_B => Sys2Proof.Machine.execLD_C_B s
  | .LD_C_C => Sys2Proof.Machine.execLD_C_C s
  | .LD_C_D => Sys2Proof.Machine.execLD_C_D s
  | .LD_C_E => Sys2Proof.Machine.execLD_C_E s
  | .LD_C_H => Sys2Proof.Machine.execLD_C_H s
  | .LD_C_L => Sys2Proof.Machine.execLD_C_L s
  | .LD_C_atHL => Sys2Proof.Machine.execLD_C_atHL s
  | .LD_C_A => Sys2Proof.Machine.execLD_C_A s
  | .LD_D_B => Sys2Proof.Machine.execLD_D_B s
  | .LD_D_C => Sys2Proof.Machine.execLD_D_C s
  | .LD_D_D => Sys2Proof.Machine.execLD_D_D s
  | .LD_D_E => Sys2Proof.Machine.execLD_D_E s
  | .LD_D_H => Sys2Proof.Machine.execLD_D_H s
  | .LD_D_L => Sys2Proof.Machine.execLD_D_L s
  | .LD_D_atHL => Sys2Proof.Machine.execLD_D_atHL s
  | .LD_D_A => Sys2Proof.Machine.execLD_D_A s
  | .LD_E_B => Sys2Proof.Machine.execLD_E_B s
  | .LD_E_C => Sys2Proof.Machine.execLD_E_C s
  | .LD_E_D => Sys2Proof.Machine.execLD_E_D s
  | .LD_E_E => Sys2Proof.Machine.execLD_E_E s
  | .LD_E_H => Sys2Proof.Machine.execLD_E_H s
  | .LD_E_L => Sys2Proof.Machine.execLD_E_L s
  | .LD_E_atHL => Sys2Proof.Machine.execLD_E_atHL s
  | .LD_E_A => Sys2Proof.Machine.execLD_E_A s
  | .LD_H_B => Sys2Proof.Machine.execLD_H_B s
  | .LD_H_C => Sys2Proof.Machine.execLD_H_C s
  | .LD_H_D => Sys2Proof.Machine.execLD_H_D s
  | .LD_H_E => Sys2Proof.Machine.execLD_H_E s
  | .LD_H_H => Sys2Proof.Machine.execLD_H_H s
  | .LD_H_L => Sys2Proof.Machine.execLD_H_L s
  | .LD_H_atHL => Sys2Proof.Machine.execLD_H_atHL s
  | .LD_H_A => Sys2Proof.Machine.execLD_H_A s
  | .LD_L_B => Sys2Proof.Machine.execLD_L_B s
  | .LD_L_C => Sys2Proof.Machine.execLD_L_C s
  | .LD_L_D => Sys2Proof.Machine.execLD_L_D s
  | .LD_L_E => Sys2Proof.Machine.execLD_L_E s
  | .LD_L_H => Sys2Proof.Machine.execLD_L_H s
  | .LD_L_L => Sys2Proof.Machine.execLD_L_L s
  | .LD_L_atHL => Sys2Proof.Machine.execLD_L_atHL s
  | .LD_L_A => Sys2Proof.Machine.execLD_L_A s
  | .LD_atHL_B => Sys2Proof.Machine.execLD_atHL_B s
  | .LD_atHL_C => Sys2Proof.Machine.execLD_atHL_C s
  | .LD_atHL_D => Sys2Proof.Machine.execLD_atHL_D s
  | .LD_atHL_E => Sys2Proof.Machine.execLD_atHL_E s
  | .LD_atHL_H => Sys2Proof.Machine.execLD_atHL_H s
  | .LD_atHL_L => Sys2Proof.Machine.execLD_atHL_L s
  | .HALT => Sys2Proof.Machine.execHALT s
  | .LD_atHL_A => Sys2Proof.Machine.execLD_atHL_A s
  | .LD_A_B => Sys2Proof.Machine.execLD_A_B s
  | .LD_A_C => Sys2Proof.Machine.execLD_A_C s
  | .LD_A_D => Sys2Proof.Machine.execLD_A_D s
  | .LD_A_E => Sys2Proof.Machine.execLD_A_E s
  | .LD_A_H => Sys2Proof.Machine.execLD_A_H s
  | .LD_A_L => Sys2Proof.Machine.execLD_A_L s
  | .LD_A_atHL => Sys2Proof.Machine.execLD_A_atHL s
  | .LD_A_A => Sys2Proof.Machine.execLD_A_A s
  | .ADD_A_B => Sys2Proof.Machine.execADD_A_B s
  | .ADD_A_C => Sys2Proof.Machine.execADD_A_C s
  | .ADD_A_D => Sys2Proof.Machine.execADD_A_D s
  | .ADD_A_E => Sys2Proof.Machine.execADD_A_E s
  | .ADD_A_H => Sys2Proof.Machine.execADD_A_H s
  | .ADD_A_L => Sys2Proof.Machine.execADD_A_L s
  | .ADD_A_atHL => Sys2Proof.Machine.execADD_A_atHL s
  | .ADD_A_A => Sys2Proof.Machine.execADD_A_A s
  | .ADC_A_B => Sys2Proof.Machine.execADC_A_B s
  | .ADC_A_C => Sys2Proof.Machine.execADC_A_C s
  | .ADC_A_D => Sys2Proof.Machine.execADC_A_D s
  | .ADC_A_E => Sys2Proof.Machine.execADC_A_E s
  | .ADC_A_H => Sys2Proof.Machine.execADC_A_H s
  | .ADC_A_L => Sys2Proof.Machine.execADC_A_L s
  | .ADC_A_atHL => Sys2Proof.Machine.execADC_A_atHL s
  | .ADC_A_A => Sys2Proof.Machine.execADC_A_A s
  | .SUB_B => Sys2Proof.Machine.execSUB_B s
  | .SUB_C => Sys2Proof.Machine.execSUB_C s
  | .SUB_D => Sys2Proof.Machine.execSUB_D s
  | .SUB_E => Sys2Proof.Machine.execSUB_E s
  | .SUB_H => Sys2Proof.Machine.execSUB_H s
  | .SUB_L => Sys2Proof.Machine.execSUB_L s
  | .SUB_atHL => Sys2Proof.Machine.execSUB_atHL s
  | .SUB_A => Sys2Proof.Machine.execSUB_A s
  | .SBC_A_B => Sys2Proof.Machine.execSBC_A_B s
  | .SBC_A_C => Sys2Proof.Machine.execSBC_A_C s
  | .SBC_A_D => Sys2Proof.Machine.execSBC_A_D s
  | .SBC_A_E => Sys2Proof.Machine.execSBC_A_E s
  | .SBC_A_H => Sys2Proof.Machine.execSBC_A_H s
  | .SBC_A_L => Sys2Proof.Machine.execSBC_A_L s
  | .SBC_A_atHL => Sys2Proof.Machine.execSBC_A_atHL s
  | .SBC_A_A => Sys2Proof.Machine.execSBC_A_A s
  | .AND_B => Sys2Proof.Machine.execAND_B s
  | .AND_C => Sys2Proof.Machine.execAND_C s
  | .AND_D => Sys2Proof.Machine.execAND_D s
  | .AND_E => Sys2Proof.Machine.execAND_E s
  | .AND_H => Sys2Proof.Machine.execAND_H s
  | .AND_L => Sys2Proof.Machine.execAND_L s
  | .AND_atHL => Sys2Proof.Machine.execAND_atHL s
  | .AND_A => Sys2Proof.Machine.execAND_A s
  | .XOR_B => Sys2Proof.Machine.execXOR_B s
  | .XOR_C => Sys2Proof.Machine.execXOR_C s
  | .XOR_D => Sys2Proof.Machine.execXOR_D s
  | .XOR_E => Sys2Proof.Machine.execXOR_E s
  | .XOR_H => Sys2Proof.Machine.execXOR_H s
  | .XOR_L => Sys2Proof.Machine.execXOR_L s
  | .XOR_atHL => Sys2Proof.Machine.execXOR_atHL s
  | .XOR_A => Sys2Proof.Machine.execXOR_A s
  | .OR_B => Sys2Proof.Machine.execOR_B s
  | .OR_C => Sys2Proof.Machine.execOR_C s
  | .OR_D => Sys2Proof.Machine.execOR_D s
  | .OR_E => Sys2Proof.Machine.execOR_E s
  | .OR_H => Sys2Proof.Machine.execOR_H s
  | .OR_L => Sys2Proof.Machine.execOR_L s
  | .OR_atHL => Sys2Proof.Machine.execOR_atHL s
  | .OR_A => Sys2Proof.Machine.execOR_A s
  | .CP_B => Sys2Proof.Machine.execCP_B s
  | .CP_C => Sys2Proof.Machine.execCP_C s
  | .CP_D => Sys2Proof.Machine.execCP_D s
  | .CP_E => Sys2Proof.Machine.execCP_E s
  | .CP_H => Sys2Proof.Machine.execCP_H s
  | .CP_L => Sys2Proof.Machine.execCP_L s
  | .CP_atHL => Sys2Proof.Machine.execCP_atHL s
  | .CP_A => Sys2Proof.Machine.execCP_A s
  | .RET_NZ => Sys2Proof.Machine.execRET_NZ s
  | .POP_BC => Sys2Proof.Machine.execPOP_BC s
  | .JP_NZ_n16 n => Sys2Proof.Machine.execJP_NZ_n16 n s
  | .JP_n16 n => Sys2Proof.Machine.execJP_n16 n s
  | .CALL_NZ_n16 n => Sys2Proof.Machine.execCALL_NZ_n16 n s
  | .PUSH_BC => Sys2Proof.Machine.execPUSH_BC s
  | .ADD_A_n8 n => Sys2Proof.Machine.execADD_A_n8 n s
  | .RST_00h => Sys2Proof.Machine.execRST_00h s
  | .RET_Z => Sys2Proof.Machine.execRET_Z s
  | .RET => Sys2Proof.Machine.execRET s
  | .JP_Z_n16 n => Sys2Proof.Machine.execJP_Z_n16 n s
  | .PREFIX_CB => Sys2Proof.Machine.execPREFIX_CB s
  | .CALL_Z_n16 n => Sys2Proof.Machine.execCALL_Z_n16 n s
  | .CALL_n16 n => Sys2Proof.Machine.execCALL_n16 n s
  | .ADC_A_n8 n => Sys2Proof.Machine.execADC_A_n8 n s
  | .RST_08h => Sys2Proof.Machine.execRST_08h s
  | .RET_NC => Sys2Proof.Machine.execRET_NC s
  | .POP_DE => Sys2Proof.Machine.execPOP_DE s
  | .JP_NC_n16 n => Sys2Proof.Machine.execJP_NC_n16 n s
  | .ILLEGAL_D3 => Sys2Proof.Machine.execILLEGAL_D3 s
  | .CALL_NC_n16 n => Sys2Proof.Machine.execCALL_NC_n16 n s
  | .PUSH_DE => Sys2Proof.Machine.execPUSH_DE s
  | .SUB_n8 n => Sys2Proof.Machine.execSUB_n8 n s
  | .RST_10h => Sys2Proof.Machine.execRST_10h s
  | .RET_C => Sys2Proof.Machine.execRET_C s
  | .RETI => Sys2Proof.Machine.execRETI s
  | .JP_C_n16 n => Sys2Proof.Machine.execJP_C_n16 n s
  | .ILLEGAL_DB => Sys2Proof.Machine.execILLEGAL_DB s
  | .CALL_C_n16 n => Sys2Proof.Machine.execCALL_C_n16 n s
  | .ILLEGAL_DD => Sys2Proof.Machine.execILLEGAL_DD s
  | .SBC_A_n8 n => Sys2Proof.Machine.execSBC_A_n8 n s
  | .RST_18h => Sys2Proof.Machine.execRST_18h s
  | .LDH_atn8_A n => Sys2Proof.Machine.execLDH_atn8_A n s
  | .POP_HL => Sys2Proof.Machine.execPOP_HL s
  | .LD_atC_A => Sys2Proof.Machine.execLD_atC_A s
  | .ILLEGAL_E3 => Sys2Proof.Machine.execILLEGAL_E3 s
  | .ILLEGAL_E4 => Sys2Proof.Machine.execILLEGAL_E4 s
  | .PUSH_HL => Sys2Proof.Machine.execPUSH_HL s
  | .AND_n8 n => Sys2Proof.Machine.execAND_n8 n s
  | .RST_20h => Sys2Proof.Machine.execRST_20h s
  | .ADD_SP_e8 e => Sys2Proof.Machine.execADD_SP_e8 e s
  | .JP_HL => Sys2Proof.Machine.execJP_HL s
  | .LD_atn16_A n => Sys2Proof.Machine.execLD_atn16_A n s
  | .ILLEGAL_EB => Sys2Proof.Machine.execILLEGAL_EB s
  | .ILLEGAL_EC => Sys2Proof.Machine.execILLEGAL_EC s
  | .ILLEGAL_ED => Sys2Proof.Machine.execILLEGAL_ED s
  | .XOR_n8 n => Sys2Proof.Machine.execXOR_n8 n s
  | .RST_28h => Sys2Proof.Machine.execRST_28h s
  | .LDH_A_atn8 n => Sys2Proof.Machine.execLDH_A_atn8 n s
  | .POP_AF => Sys2Proof.Machine.execPOP_AF s
  | .LD_A_atC => Sys2Proof.Machine.execLD_A_atC s
  | .DI => Sys2Proof.Machine.execDI s
  | .ILLEGAL_F4 => Sys2Proof.Machine.execILLEGAL_F4 s
  | .PUSH_AF => Sys2Proof.Machine.execPUSH_AF s
  | .OR_n8 n => Sys2Proof.Machine.execOR_n8 n s
  | .RST_30h => Sys2Proof.Machine.execRST_30h s
  | .LD_HL_SPe8 e => Sys2Proof.Machine.execLD_HL_SPe8 e s
  | .LD_SP_HL => Sys2Proof.Machine.execLD_SP_HL s
  | .LD_A_atn16 n => Sys2Proof.Machine.execLD_A_atn16 n s
  | .EI => Sys2Proof.Machine.execEI s
  | .ILLEGAL_FC => Sys2Proof.Machine.execILLEGAL_FC s
  | .ILLEGAL_FD => Sys2Proof.Machine.execILLEGAL_FD s
  | .CP_n8 n => Sys2Proof.Machine.execCP_n8 n s
  | .RST_38h => Sys2Proof.Machine.execRST_38h s
  | .RLC_B => Sys2Proof.Machine.execRLC_B s
  | .RLC_C => Sys2Proof.Machine.execRLC_C s
  | .RLC_D => Sys2Proof.Machine.execRLC_D s
  | .RLC_E => Sys2Proof.Machine.execRLC_E s
  | .RLC_H => Sys2Proof.Machine.execRLC_H s
  | .RLC_L => Sys2Proof.Machine.execRLC_L s
  | .RLC_atHL => Sys2Proof.Machine.execRLC_atHL s
  | .RLC_A => Sys2Proof.Machine.execRLC_A s
  | .RRC_B => Sys2Proof.Machine.execRRC_B s
  | .RRC_C => Sys2Proof.Machine.execRRC_C s
  | .RRC_D => Sys2Proof.Machine.execRRC_D s
  | .RRC_E => Sys2Proof.Machine.execRRC_E s
  | .RRC_H => Sys2Proof.Machine.execRRC_H s
  | .RRC_L => Sys2Proof.Machine.execRRC_L s
  | .RRC_atHL => Sys2Proof.Machine.execRRC_atHL s
  | .RRC_A => Sys2Proof.Machine.execRRC_A s
  | .RL_B => Sys2Proof.Machine.execRL_B s
  | .RL_C => Sys2Proof.Machine.execRL_C s
  | .RL_D => Sys2Proof.Machine.execRL_D s
  | .RL_E => Sys2Proof.Machine.execRL_E s
  | .RL_H => Sys2Proof.Machine.execRL_H s
  | .RL_L => Sys2Proof.Machine.execRL_L s
  | .RL_atHL => Sys2Proof.Machine.execRL_atHL s
  | .RL_A => Sys2Proof.Machine.execRL_A s
  | .RR_B => Sys2Proof.Machine.execRR_B s
  | .RR_C => Sys2Proof.Machine.execRR_C s
  | .RR_D => Sys2Proof.Machine.execRR_D s
  | .RR_E => Sys2Proof.Machine.execRR_E s
  | .RR_H => Sys2Proof.Machine.execRR_H s
  | .RR_L => Sys2Proof.Machine.execRR_L s
  | .RR_atHL => Sys2Proof.Machine.execRR_atHL s
  | .RR_A => Sys2Proof.Machine.execRR_A s
  | .SLA_B => Sys2Proof.Machine.execSLA_B s
  | .SLA_C => Sys2Proof.Machine.execSLA_C s
  | .SLA_D => Sys2Proof.Machine.execSLA_D s
  | .SLA_E => Sys2Proof.Machine.execSLA_E s
  | .SLA_H => Sys2Proof.Machine.execSLA_H s
  | .SLA_L => Sys2Proof.Machine.execSLA_L s
  | .SLA_atHL => Sys2Proof.Machine.execSLA_atHL s
  | .SLA_A => Sys2Proof.Machine.execSLA_A s
  | .SRA_B => Sys2Proof.Machine.execSRA_B s
  | .SRA_C => Sys2Proof.Machine.execSRA_C s
  | .SRA_D => Sys2Proof.Machine.execSRA_D s
  | .SRA_E => Sys2Proof.Machine.execSRA_E s
  | .SRA_H => Sys2Proof.Machine.execSRA_H s
  | .SRA_L => Sys2Proof.Machine.execSRA_L s
  | .SRA_atHL => Sys2Proof.Machine.execSRA_atHL s
  | .SRA_A => Sys2Proof.Machine.execSRA_A s
  | .SWAP_B => Sys2Proof.Machine.execSWAP_B s
  | .SWAP_C => Sys2Proof.Machine.execSWAP_C s
  | .SWAP_D => Sys2Proof.Machine.execSWAP_D s
  | .SWAP_E => Sys2Proof.Machine.execSWAP_E s
  | .SWAP_H => Sys2Proof.Machine.execSWAP_H s
  | .SWAP_L => Sys2Proof.Machine.execSWAP_L s
  | .SWAP_atHL => Sys2Proof.Machine.execSWAP_atHL s
  | .SWAP_A => Sys2Proof.Machine.execSWAP_A s
  | .SRL_B => Sys2Proof.Machine.execSRL_B s
  | .SRL_C => Sys2Proof.Machine.execSRL_C s
  | .SRL_D => Sys2Proof.Machine.execSRL_D s
  | .SRL_E => Sys2Proof.Machine.execSRL_E s
  | .SRL_H => Sys2Proof.Machine.execSRL_H s
  | .SRL_L => Sys2Proof.Machine.execSRL_L s
  | .SRL_atHL => Sys2Proof.Machine.execSRL_atHL s
  | .SRL_A => Sys2Proof.Machine.execSRL_A s
  | .BIT_0_B => Sys2Proof.Machine.execBIT_0_B s
  | .BIT_0_C => Sys2Proof.Machine.execBIT_0_C s
  | .BIT_0_D => Sys2Proof.Machine.execBIT_0_D s
  | .BIT_0_E => Sys2Proof.Machine.execBIT_0_E s
  | .BIT_0_H => Sys2Proof.Machine.execBIT_0_H s
  | .BIT_0_L => Sys2Proof.Machine.execBIT_0_L s
  | .BIT_0_atHL => Sys2Proof.Machine.execBIT_0_atHL s
  | .BIT_0_A => Sys2Proof.Machine.execBIT_0_A s
  | .BIT_1_B => Sys2Proof.Machine.execBIT_1_B s
  | .BIT_1_C => Sys2Proof.Machine.execBIT_1_C s
  | .BIT_1_D => Sys2Proof.Machine.execBIT_1_D s
  | .BIT_1_E => Sys2Proof.Machine.execBIT_1_E s
  | .BIT_1_H => Sys2Proof.Machine.execBIT_1_H s
  | .BIT_1_L => Sys2Proof.Machine.execBIT_1_L s
  | .BIT_1_atHL => Sys2Proof.Machine.execBIT_1_atHL s
  | .BIT_1_A => Sys2Proof.Machine.execBIT_1_A s
  | .BIT_2_B => Sys2Proof.Machine.execBIT_2_B s
  | .BIT_2_C => Sys2Proof.Machine.execBIT_2_C s
  | .BIT_2_D => Sys2Proof.Machine.execBIT_2_D s
  | .BIT_2_E => Sys2Proof.Machine.execBIT_2_E s
  | .BIT_2_H => Sys2Proof.Machine.execBIT_2_H s
  | .BIT_2_L => Sys2Proof.Machine.execBIT_2_L s
  | .BIT_2_atHL => Sys2Proof.Machine.execBIT_2_atHL s
  | .BIT_2_A => Sys2Proof.Machine.execBIT_2_A s
  | .BIT_3_B => Sys2Proof.Machine.execBIT_3_B s
  | .BIT_3_C => Sys2Proof.Machine.execBIT_3_C s
  | .BIT_3_D => Sys2Proof.Machine.execBIT_3_D s
  | .BIT_3_E => Sys2Proof.Machine.execBIT_3_E s
  | .BIT_3_H => Sys2Proof.Machine.execBIT_3_H s
  | .BIT_3_L => Sys2Proof.Machine.execBIT_3_L s
  | .BIT_3_atHL => Sys2Proof.Machine.execBIT_3_atHL s
  | .BIT_3_A => Sys2Proof.Machine.execBIT_3_A s
  | .BIT_4_B => Sys2Proof.Machine.execBIT_4_B s
  | .BIT_4_C => Sys2Proof.Machine.execBIT_4_C s
  | .BIT_4_D => Sys2Proof.Machine.execBIT_4_D s
  | .BIT_4_E => Sys2Proof.Machine.execBIT_4_E s
  | .BIT_4_H => Sys2Proof.Machine.execBIT_4_H s
  | .BIT_4_L => Sys2Proof.Machine.execBIT_4_L s
  | .BIT_4_atHL => Sys2Proof.Machine.execBIT_4_atHL s
  | .BIT_4_A => Sys2Proof.Machine.execBIT_4_A s
  | .BIT_5_B => Sys2Proof.Machine.execBIT_5_B s
  | .BIT_5_C => Sys2Proof.Machine.execBIT_5_C s
  | .BIT_5_D => Sys2Proof.Machine.execBIT_5_D s
  | .BIT_5_E => Sys2Proof.Machine.execBIT_5_E s
  | .BIT_5_H => Sys2Proof.Machine.execBIT_5_H s
  | .BIT_5_L => Sys2Proof.Machine.execBIT_5_L s
  | .BIT_5_atHL => Sys2Proof.Machine.execBIT_5_atHL s
  | .BIT_5_A => Sys2Proof.Machine.execBIT_5_A s
  | .BIT_6_B => Sys2Proof.Machine.execBIT_6_B s
  | .BIT_6_C => Sys2Proof.Machine.execBIT_6_C s
  | .BIT_6_D => Sys2Proof.Machine.execBIT_6_D s
  | .BIT_6_E => Sys2Proof.Machine.execBIT_6_E s
  | .BIT_6_H => Sys2Proof.Machine.execBIT_6_H s
  | .BIT_6_L => Sys2Proof.Machine.execBIT_6_L s
  | .BIT_6_atHL => Sys2Proof.Machine.execBIT_6_atHL s
  | .BIT_6_A => Sys2Proof.Machine.execBIT_6_A s
  | .BIT_7_B => Sys2Proof.Machine.execBIT_7_B s
  | .BIT_7_C => Sys2Proof.Machine.execBIT_7_C s
  | .BIT_7_D => Sys2Proof.Machine.execBIT_7_D s
  | .BIT_7_E => Sys2Proof.Machine.execBIT_7_E s
  | .BIT_7_H => Sys2Proof.Machine.execBIT_7_H s
  | .BIT_7_L => Sys2Proof.Machine.execBIT_7_L s
  | .BIT_7_atHL => Sys2Proof.Machine.execBIT_7_atHL s
  | .BIT_7_A => Sys2Proof.Machine.execBIT_7_A s
  | .RES_0_B => Sys2Proof.Machine.execRES_0_B s
  | .RES_0_C => Sys2Proof.Machine.execRES_0_C s
  | .RES_0_D => Sys2Proof.Machine.execRES_0_D s
  | .RES_0_E => Sys2Proof.Machine.execRES_0_E s
  | .RES_0_H => Sys2Proof.Machine.execRES_0_H s
  | .RES_0_L => Sys2Proof.Machine.execRES_0_L s
  | .RES_0_atHL => Sys2Proof.Machine.execRES_0_atHL s
  | .RES_0_A => Sys2Proof.Machine.execRES_0_A s
  | .RES_1_B => Sys2Proof.Machine.execRES_1_B s
  | .RES_1_C => Sys2Proof.Machine.execRES_1_C s
  | .RES_1_D => Sys2Proof.Machine.execRES_1_D s
  | .RES_1_E => Sys2Proof.Machine.execRES_1_E s
  | .RES_1_H => Sys2Proof.Machine.execRES_1_H s
  | .RES_1_L => Sys2Proof.Machine.execRES_1_L s
  | .RES_1_atHL => Sys2Proof.Machine.execRES_1_atHL s
  | .RES_1_A => Sys2Proof.Machine.execRES_1_A s
  | .RES_2_B => Sys2Proof.Machine.execRES_2_B s
  | .RES_2_C => Sys2Proof.Machine.execRES_2_C s
  | .RES_2_D => Sys2Proof.Machine.execRES_2_D s
  | .RES_2_E => Sys2Proof.Machine.execRES_2_E s
  | .RES_2_H => Sys2Proof.Machine.execRES_2_H s
  | .RES_2_L => Sys2Proof.Machine.execRES_2_L s
  | .RES_2_atHL => Sys2Proof.Machine.execRES_2_atHL s
  | .RES_2_A => Sys2Proof.Machine.execRES_2_A s
  | .RES_3_B => Sys2Proof.Machine.execRES_3_B s
  | .RES_3_C => Sys2Proof.Machine.execRES_3_C s
  | .RES_3_D => Sys2Proof.Machine.execRES_3_D s
  | .RES_3_E => Sys2Proof.Machine.execRES_3_E s
  | .RES_3_H => Sys2Proof.Machine.execRES_3_H s
  | .RES_3_L => Sys2Proof.Machine.execRES_3_L s
  | .RES_3_atHL => Sys2Proof.Machine.execRES_3_atHL s
  | .RES_3_A => Sys2Proof.Machine.execRES_3_A s
  | .RES_4_B => Sys2Proof.Machine.execRES_4_B s
  | .RES_4_C => Sys2Proof.Machine.execRES_4_C s
  | .RES_4_D => Sys2Proof.Machine.execRES_4_D s
  | .RES_4_E => Sys2Proof.Machine.execRES_4_E s
  | .RES_4_H => Sys2Proof.Machine.execRES_4_H s
  | .RES_4_L => Sys2Proof.Machine.execRES_4_L s
  | .RES_4_atHL => Sys2Proof.Machine.execRES_4_atHL s
  | .RES_4_A => Sys2Proof.Machine.execRES_4_A s
  | .RES_5_B => Sys2Proof.Machine.execRES_5_B s
  | .RES_5_C => Sys2Proof.Machine.execRES_5_C s
  | .RES_5_D => Sys2Proof.Machine.execRES_5_D s
  | .RES_5_E => Sys2Proof.Machine.execRES_5_E s
  | .RES_5_H => Sys2Proof.Machine.execRES_5_H s
  | .RES_5_L => Sys2Proof.Machine.execRES_5_L s
  | .RES_5_atHL => Sys2Proof.Machine.execRES_5_atHL s
  | .RES_5_A => Sys2Proof.Machine.execRES_5_A s
  | .RES_6_B => Sys2Proof.Machine.execRES_6_B s
  | .RES_6_C => Sys2Proof.Machine.execRES_6_C s
  | .RES_6_D => Sys2Proof.Machine.execRES_6_D s
  | .RES_6_E => Sys2Proof.Machine.execRES_6_E s
  | .RES_6_H => Sys2Proof.Machine.execRES_6_H s
  | .RES_6_L => Sys2Proof.Machine.execRES_6_L s
  | .RES_6_atHL => Sys2Proof.Machine.execRES_6_atHL s
  | .RES_6_A => Sys2Proof.Machine.execRES_6_A s
  | .RES_7_B => Sys2Proof.Machine.execRES_7_B s
  | .RES_7_C => Sys2Proof.Machine.execRES_7_C s
  | .RES_7_D => Sys2Proof.Machine.execRES_7_D s
  | .RES_7_E => Sys2Proof.Machine.execRES_7_E s
  | .RES_7_H => Sys2Proof.Machine.execRES_7_H s
  | .RES_7_L => Sys2Proof.Machine.execRES_7_L s
  | .RES_7_atHL => Sys2Proof.Machine.execRES_7_atHL s
  | .RES_7_A => Sys2Proof.Machine.execRES_7_A s
  | .SET_0_B => Sys2Proof.Machine.execSET_0_B s
  | .SET_0_C => Sys2Proof.Machine.execSET_0_C s
  | .SET_0_D => Sys2Proof.Machine.execSET_0_D s
  | .SET_0_E => Sys2Proof.Machine.execSET_0_E s
  | .SET_0_H => Sys2Proof.Machine.execSET_0_H s
  | .SET_0_L => Sys2Proof.Machine.execSET_0_L s
  | .SET_0_atHL => Sys2Proof.Machine.execSET_0_atHL s
  | .SET_0_A => Sys2Proof.Machine.execSET_0_A s
  | .SET_1_B => Sys2Proof.Machine.execSET_1_B s
  | .SET_1_C => Sys2Proof.Machine.execSET_1_C s
  | .SET_1_D => Sys2Proof.Machine.execSET_1_D s
  | .SET_1_E => Sys2Proof.Machine.execSET_1_E s
  | .SET_1_H => Sys2Proof.Machine.execSET_1_H s
  | .SET_1_L => Sys2Proof.Machine.execSET_1_L s
  | .SET_1_atHL => Sys2Proof.Machine.execSET_1_atHL s
  | .SET_1_A => Sys2Proof.Machine.execSET_1_A s
  | .SET_2_B => Sys2Proof.Machine.execSET_2_B s
  | .SET_2_C => Sys2Proof.Machine.execSET_2_C s
  | .SET_2_D => Sys2Proof.Machine.execSET_2_D s
  | .SET_2_E => Sys2Proof.Machine.execSET_2_E s
  | .SET_2_H => Sys2Proof.Machine.execSET_2_H s
  | .SET_2_L => Sys2Proof.Machine.execSET_2_L s
  | .SET_2_atHL => Sys2Proof.Machine.execSET_2_atHL s
  | .SET_2_A => Sys2Proof.Machine.execSET_2_A s
  | .SET_3_B => Sys2Proof.Machine.execSET_3_B s
  | .SET_3_C => Sys2Proof.Machine.execSET_3_C s
  | .SET_3_D => Sys2Proof.Machine.execSET_3_D s
  | .SET_3_E => Sys2Proof.Machine.execSET_3_E s
  | .SET_3_H => Sys2Proof.Machine.execSET_3_H s
  | .SET_3_L => Sys2Proof.Machine.execSET_3_L s
  | .SET_3_atHL => Sys2Proof.Machine.execSET_3_atHL s
  | .SET_3_A => Sys2Proof.Machine.execSET_3_A s
  | .SET_4_B => Sys2Proof.Machine.execSET_4_B s
  | .SET_4_C => Sys2Proof.Machine.execSET_4_C s
  | .SET_4_D => Sys2Proof.Machine.execSET_4_D s
  | .SET_4_E => Sys2Proof.Machine.execSET_4_E s
  | .SET_4_H => Sys2Proof.Machine.execSET_4_H s
  | .SET_4_L => Sys2Proof.Machine.execSET_4_L s
  | .SET_4_atHL => Sys2Proof.Machine.execSET_4_atHL s
  | .SET_4_A => Sys2Proof.Machine.execSET_4_A s
  | .SET_5_B => Sys2Proof.Machine.execSET_5_B s
  | .SET_5_C => Sys2Proof.Machine.execSET_5_C s
  | .SET_5_D => Sys2Proof.Machine.execSET_5_D s
  | .SET_5_E => Sys2Proof.Machine.execSET_5_E s
  | .SET_5_H => Sys2Proof.Machine.execSET_5_H s
  | .SET_5_L => Sys2Proof.Machine.execSET_5_L s
  | .SET_5_atHL => Sys2Proof.Machine.execSET_5_atHL s
  | .SET_5_A => Sys2Proof.Machine.execSET_5_A s
  | .SET_6_B => Sys2Proof.Machine.execSET_6_B s
  | .SET_6_C => Sys2Proof.Machine.execSET_6_C s
  | .SET_6_D => Sys2Proof.Machine.execSET_6_D s
  | .SET_6_E => Sys2Proof.Machine.execSET_6_E s
  | .SET_6_H => Sys2Proof.Machine.execSET_6_H s
  | .SET_6_L => Sys2Proof.Machine.execSET_6_L s
  | .SET_6_atHL => Sys2Proof.Machine.execSET_6_atHL s
  | .SET_6_A => Sys2Proof.Machine.execSET_6_A s
  | .SET_7_B => Sys2Proof.Machine.execSET_7_B s
  | .SET_7_C => Sys2Proof.Machine.execSET_7_C s
  | .SET_7_D => Sys2Proof.Machine.execSET_7_D s
  | .SET_7_E => Sys2Proof.Machine.execSET_7_E s
  | .SET_7_H => Sys2Proof.Machine.execSET_7_H s
  | .SET_7_L => Sys2Proof.Machine.execSET_7_L s
  | .SET_7_atHL => Sys2Proof.Machine.execSET_7_atHL s
  | .SET_7_A => Sys2Proof.Machine.execSET_7_A s

end Sys2Proof.Machine
end

