-- ==== Sys2Proof/Machine/Cpu.lean ====
section
/-! DEFINITION. The CPU step (60_exceptions.md R390 to R394). -/

namespace Sys2Proof.Machine

/-- R390: `pend = IE AND IF AND 0x1F`. -/
def State.pend (s : State) : Byte := s.ie &&& s.iflag &&& 0x1F#8

/-- R391: the line of the lowest set bit. -/
def lowestLine (pend : Byte) : Option Line :=
  if pend.getLsbD 0 then some .VBLANK
  else if pend.getLsbD 1 then some .LCD_STAT
  else if pend.getLsbD 2 then some .TIMER
  else if pend.getLsbD 3 then some .SERIAL
  else if pend.getLsbD 4 then some .JOYPAD
  else none

/-- R394: the wake test, IME no part of it. -/
def wake (s : State) : State :=
  if s.halted = true ∧ s.pend ≠ 0#8 then { s with halted := false, next := s.cycles } else s

/-- R390, R391: the interrupt that a boundary dispatches. -/
def State.recognised (s : State) : Option Line := if s.ime then lowestLine s.pend else none

/-- R120, R393: the instruction at `pc`, fetched by bus reads (R103) of exactly its own bytes. No component that the
spec describes has a read with an effect (R99, log 10). -/
def State.fetched (s : State) : Instr := decodeAt s.busRead s.pc

/-- R393: an instruction boundary: one dispatch or one instruction. -/
def atBoundary (s : State) : Host.Outcome State Fault Refusal :=
  match s.recognised with
  | some i => .next (dispatch i s)
  | none => exec s.fetched s

/-- R393, after the wake test: idle ticks do nothing. -/
def runBoundary (s : State) : Host.Outcome State Fault Refusal :=
  if s.halted = true ∨ s.cycles ≠ s.next then .next s else atBoundary s

/-- R393: `CpuStep(c)` with `c = cycles`. -/
def cpuStep (s : State) : Host.Outcome State Fault Refusal :=
  match s.fault with
  | some _ => .next s
  | none => runBoundary (wake s)

end Sys2Proof.Machine
end

