-- ==== Sys2Proof/Machine/Render.lean ====
section
/-! DEFINITION. Data formats and line rendering (65_ppu.md R470 to R474, R493 to R498): pure functions of the
picture unit's state, read directly and not through the bus (R503). -/

namespace Sys2Proof.Machine

/-- R454: `LCD_HEIGHT`, the visible lines. -/
def lcdHeight : Nat := 144

/-- R470: `TileRow(base, r) = (lo, hi)`. -/
def Ppu.tileRow (p : Ppu) (base r : Nat) : Byte × Byte :=
  (p.vram.read (base + 2 * r), p.vram.read (base + 2 * r + 1))

/-- R471: `TileBase(t)` for background and window. -/
def Ppu.tileBase (p : Ppu) (t : Byte) : Nat :=
  if p.lcdc.getLsbD 4 then 0x8000 + 16 * t.toNat else 0x8800 + 16 * ((t.toNat + 0x80) % 256)

/-- R472. -/
def mapBase (area : Bool) : Nat := if area then 0x9C00 else 0x9800

/-- R472. -/
def Ppu.mapEntry (p : Ppu) (area : Bool) (row col : Nat) : Byte :=
  p.vram.read (mapBase area + 32 * row + col)

/-- R494, R495: the 256-pixel line of row `y` of a tile map. -/
def Ppu.mapLine (p : Ppu) (area : Bool) (y : Nat) : LcdImageLine 256 :=
  lineFromTiles fun j => p.tileRow (p.tileBase (p.mapEntry area (y / 8) j)) (y % 8)

/-- R474: `wx = max(0, WX - 7)`; subtraction of naturals stops at 0. -/
def Ppu.windowX (p : Ppu) : Nat := p.wx.toNat - 7

/-- R474. -/
def Ppu.windowDrawn (p : Ppu) (ly : Nat) : Bool :=
  p.lcdc.getLsbD 5 && decide (p.wy.toNat ≤ ly) && decide (p.windowX < 160)

/-- R494: the row of the background map that line `ly` shows. -/
def Ppu.backgroundRow (p : Ppu) (ly : Nat) : Nat := (ly + p.scy.toNat) % 256

/-- R494. -/
def Ppu.backgroundLine (p : Ppu) (ly : Nat) : LcdImageLine 160 :=
  if p.lcdc.getLsbD 0 then
    ((p.mapLine (p.lcdc.getLsbD 3) (p.backgroundRow ly)).extractWrapped p.scx.toNat 160).mapColors p.bgp
  else LcdImageLine.empty 160

/-- R495: the row is `winY`, not `ly - WY`. -/
def Ppu.windowLine (p : Ppu) : LcdImageLine 160 :=
  (((p.mapLine (p.lcdc.getLsbD 6) p.winY).extractZeroExtended 0 160).shift p.windowX).mapColors p.bgp

/-- R473: `Y = Oam[4k]`. -/
def Ppu.spriteY (p : Ppu) (k : Nat) : Byte := p.oam.read (4 * k)
/-- R473: `X = Oam[4k + 1]`. -/
def Ppu.spriteX (p : Ppu) (k : Nat) : Byte := p.oam.read (4 * k + 1)
/-- R473: `T = Oam[4k + 2]`. -/
def Ppu.spriteTile (p : Ppu) (k : Nat) : Byte := p.oam.read (4 * k + 2)
/-- R473: `A = Oam[4k + 3]`. -/
def Ppu.spriteFlags (p : Ppu) (k : Nat) : Byte := p.oam.read (4 * k + 3)

/-- R496: the height of every sprite. -/
def Ppu.spriteHeight (p : Ppu) : Nat := if p.lcdc.getLsbD 2 then 16 else 8

/-- R496: `Oam[4k] - 16 <= ly < Oam[4k] - 16 + h`, on integers. -/
def Ppu.spriteMatches (p : Ppu) (ly k : Nat) : Bool :=
  decide ((p.spriteY k).toNat ≤ ly + 16) && decide (ly + 16 < (p.spriteY k).toNat + p.spriteHeight)

/-- R496: the order by the key `(Oam[4k + 1], k)`. -/
def Ppu.spriteBefore (p : Ppu) (j k : Nat) : Bool :=
  decide ((p.spriteX j).toNat < (p.spriteX k).toNat) ||
  (decide (p.spriteX j = p.spriteX k) && decide (j ≤ k))

/-- Inserting a sprite into a sorted list. -/
def Ppu.insertSprite (p : Ppu) (k : Nat) : List Nat → List Nat
  | [] => [k]
  | j :: rest => if p.spriteBefore k j then k :: j :: rest else j :: p.insertSprite k rest

/-- Sorting by `spriteBefore`. -/
def Ppu.sortSprites (p : Ppu) : List Nat → List Nat
  | [] => []
  | k :: rest => p.insertSprite k (p.sortSprites rest)

/-- R496: the first ten matches of the scan, sorted. -/
def Ppu.spritesOnLine (p : Ppu) (ly : Nat) : List Nat :=
  p.sortSprites (((List.range 40).filter (p.spriteMatches ly)).take 10)

/-- R497: the row of the sprite's pattern that line `ly` shows, after the vertical flip. -/
def Ppu.spriteRow (p : Ppu) (k ly : Nat) : Nat :=
  let r := ly + 16 - (p.spriteY k).toNat
  if (p.spriteFlags k).getLsbD 6 then p.spriteHeight - 1 - r else r

/-- R497: the tile index; for 8x16 sprites `OBJ16_MASK_BIT0` may clear its bit 0 (D24). -/
def Ppu.spriteIndex (p : Ppu) (maskBit0 : Bool) (k : Nat) : Byte :=
  if p.lcdc.getLsbD 2 && maskBit0 then p.spriteTile k &&& 0xFE#8 else p.spriteTile k

/-- R497: the two pattern bytes, leftmost pixel in bit 0. -/
def Ppu.spritePattern (p : Ppu) (maskBit0 : Bool) (k ly : Nat) : Byte × Byte :=
  let row := p.tileRow (0x8000 + 16 * (p.spriteIndex maskBit0 k).toNat) (p.spriteRow k ly)
  if (p.spriteFlags k).getLsbD 5 then row else (reverse8 row.1, reverse8 row.2)

/-- R497: the palette a sprite selects. -/
def Ppu.spritePalette (p : Ppu) (k : Nat) : Byte := if (p.spriteFlags k).getLsbD 4 then p.obp1 else p.obp0

/-- R497. -/
def Ppu.spriteLine (p : Ppu) (maskBit0 : Bool) (k ly : Nat) : LcdImageLine 160 :=
  let row := p.spritePattern maskBit0 k ly
  ((LcdImageLine.ofPlanes (row.2.setWidth 160) (row.1.setWidth 160)).shift
    (((p.spriteX k).toNat : Int) - 8)).mapColors (p.spritePalette k)

/-- R473: A[7], BEHIND_BG. -/
def Ppu.spriteBehind (p : Ppu) (k : Nat) : Bool := (p.spriteFlags k).getLsbD 7

/-- R493, R498: one group of sprites, laid down from the last of the sorted list to the first. -/
def Ppu.spriteGroup (p : Ppu) (maskBit0 : Bool) (ly : Nat) (behind : Bool) (order : List Nat) :
    LcdImageLine 160 :=
  (order.reverse.filter fun k => p.spriteBehind k == behind).foldl
    (fun L k => L.below (p.spriteLine maskBit0 k ly)) (LcdImageLine.empty 160)

/-- R493: background and window. -/
def Ppu.sceneLine (p : Ppu) (ly : Nat) : LcdImageLine 160 :=
  if p.windowDrawn ly then (p.backgroundLine ly).join p.windowLine p.windowX else p.backgroundLine ly

/-- R493: the finished line. -/
def Ppu.computeLine (p : Ppu) (maskBit0 : Bool) (ly : Nat) : LcdImageLine 160 :=
  let L := p.sceneLine ly
  if p.lcdc.getLsbD 1 then
    let order := p.spritesOnLine ly
    let Sb := p.spriteGroup maskBit0 ly true order
    let Sf := p.spriteGroup maskBit0 ly false order
    (L.belowMask Sb (Sb.opacity &&& ~~~L.opacity)).below Sf
  else L

/-- R493, R495: the window's row counter after the line. -/
def Ppu.nextWinY (p : Ppu) (ly : Nat) : Nat := if p.windowDrawn ly then p.winY + 1 else p.winY

end Sys2Proof.Machine
end

