-- ==== Sys2Proof/Machine/Ppu.lean ====
section
/-! DEFINITION. The picture unit's step (65_ppu.md R450 to R461, R499, R500). -/

namespace Sys2Proof.Machine

/-- R454: 154 lines of 114 cycles. -/
def frameCycles : Nat := 17556

/-- R461: the address of the copy's next byte, `{DMA, dmaIndex[7:0]}`. -/
def Ppu.dmaSource (p : Ppu) : Word := make16 p.dma (BitVec.ofNat 8 p.dmaIndex)

/-- R461: one byte of the copy: a full bus read and a direct write into `Oam`. -/
def dmaStep (s : State) : State :=
  if s.ppu.dmaActive then
    { s with ppu := { s.ppu with
        oam := s.ppu.oam.write s.ppu.dmaIndex (s.busRead s.ppu.dmaSource)
        dmaIndex := s.ppu.dmaIndex + 1
        dmaActive := decide (s.ppu.dmaIndex + 1 ≠ 160) } }
  else s

/-- R452. -/
def lcdStart (s : State) : State :=
  if !s.ppu.lcdActive && s.ppu.lcdc.getLsbD 7 then
    { s with ppu := { s.ppu with lcdActive := true, lcdOnCycle := s.cycles } }
  else s

/-- R459. -/
def frameStart (s : State) : State :=
  { s with ppu := { s.ppu with nextFrame := List.replicate lcdHeight none, winY := 0 } }

/-- R500: the 160 colours of a line, opacity dropped. -/
def LcdImageLine.colours (L : LcdImageLine 160) : List (BitVec 2) := (List.range 160).map L.colour

/-- R500: row `r` of the image latched in tick `c`. A slot that is still empty, which R500 says never is, gives a
free value (log 8). -/
def latchRow (c r : Nat) : Option (LcdImageLine 160) → List (BitVec 2)
  | some L => L.colours
  | none => LcdImageLine.colours ⟨Config.emptySlotMsb c r, Config.emptySlotLsb c r, 0#160⟩

/-- R500: `Latch(nextFrame)`, the rows from `r` on. -/
def latchFrom (c : Nat) : Nat → List (Option (LcdImageLine 160)) → List (List (BitVec 2))
  | _, [] => []
  | r, slot :: rest => latchRow c r slot :: latchFrom c (r + 1) rest

/-- R456: the latch and the VBLANK request, which does not depend on STAT. -/
def vblankEntry (s : State) : State :=
  requestInterrupt .VBLANK
    { s with ppu := { s.ppu with currentImage := latchFrom s.cycles 0 s.ppu.nextFrame } }

/-- R450, offset 0 of a line. -/
def lineStart (line : Nat) (s : State) : State :=
  let s1 := if line = 0 then frameStart s else s
  let s2 := if line < lcdHeight then setMode 2 s1 else s1
  let s3 := if line = lcdHeight then setMode 1 s2 else s2
  let s4 := setLY (BitVec.ofNat 8 line) s3
  if line = lcdHeight then vblankEntry s4 else s4

/-- R450, offset 20 of a visible line: mode 3, and the whole line is rendered (R503). -/
def pixelTransfer (line : Nat) (s : State) : State :=
  let s1 := setMode 3 s
  { s1 with ppu := { s1.ppu with
      nextFrame := s1.ppu.nextFrame.set line (some (s1.ppu.computeLine s1.platform.obj16MaskBit0 line))
      winY := s1.ppu.nextWinY line } }

/-- R450, R454: the position in the frame at tick `s.cycles`. -/
def framePosition (s : State) : Nat := (s.cycles - s.ppu.lcdOnCycle) % frameCycles

/-- R450: the state machine's action at a position of the frame. -/
def lcdAction (p : Nat) (s : State) : State :=
  if p % 114 = 0 then lineStart (p / 114) s
  else if p % 114 = 20 ∧ p / 114 < lcdHeight then pixelTransfer (p / 114) s
  else if p % 114 = 63 ∧ p / 114 < lcdHeight then setMode 0 s
  else s

/-- R450: the state machine, while it runs. -/
def lcdStep (s : State) : State := if s.ppu.lcdActive then lcdAction (framePosition s) s else s

/-- R450: the picture unit's step in tick `s.cycles`. -/
def ppuStep (s : State) : State := lcdStep (lcdStart (dmaStep s))

end Sys2Proof.Machine
end

