-- ==== Sys2Proof/Machine/Tick.lean ====
section
/-! DEFINITION. One tick of the whole machine (60_exceptions.md R420), and the placing of an instruction's bytes
where the next tick fetches them. -/

namespace Sys2Proof.Machine

/-- R420: the timer's step, then the picture unit's. -/
def devicesStep (s : State) : State := ppuStep (timerStep s)

/-- R420: `cycles <- c + 1`, after the CPU step of tick `c`. -/
def State.endTick (c : Nat) (t : State) : State := { t with cycles := c + 1 }

/-- R420: `Tick()`; its precondition, no fault, is Step.lean's. -/
def tick (s : State) : Host.Outcome State Fault Refusal :=
  match cpuStep (devicesStep s) with
  | .next t => .next (t.endTick s.cycles)
  | .fault f => .fault f
  | .refused r => .refused r

/-- R381: the machine after a tick that raises a fault: the device steps stand, nothing of the CPU step does,
`cycles` is not incremented, `fault` is set. -/
def faultedState (f : Fault) (s : State) : State := (devicesStep s).faulted f

/-! ## Placing an instruction (the host's `withFetchWord`, log 6) -/

/-- A byte under a fetch address that plain storage does not answer: a one-byte ROM of its own, asked first. -/
def State.placeInFront (s : State) (a : Word) (v : Byte) : State :=
  { s with
      platform := { s.platform with components := .rom ⟨a.toNat, 1, 0x10000 + a.toNat⟩ :: s.platform.components }
      mem := s.mem.write (0x10000 + a.toNat) v }

/-- A byte placed in the storage that answers a read of its address. -/
def State.placeByte (s : State) (a : Word) (v : Byte) : State :=
  match s.platform.components.find? fun comp => (comp.read s a).isSome with
  | some (.rom r) => { s with mem := s.mem.write (r.key a) v }
  | some (.ram r) => { s with mem := s.mem.write (r.key a) v }
  | some (.bootRom base) => { s with mem := s.mem.write (base + a.toNat) v }
  | some .cpu => if inHighRam a then { s with hram := s.hram.write a.toNat v } else s.placeInFront a v
  | some .ppu =>
    if inVram a then { s with ppu := { s.ppu with vram := s.ppu.vram.write a.toNat v } }
    else s.placeInFront a v
  | some .timer => s.placeInFront a v
  | none => s.placeInFront a v

/-- Whether the three bytes are what a fetch at `pc` reads. -/
def State.holds3 (s : State) (b0 b1 b2 : Byte) : Bool :=
  decide (s.busRead s.pc = b0) && decide (s.busRead (s.pc + 1#16) = b1) && decide (s.busRead (s.pc + 2#16) = b2)

/-- Three bytes placed at `pc`; in front of every component where storage is shared between the three addresses. -/
def State.placeAtPc (s : State) (b0 b1 b2 : Byte) : State :=
  let t := ((s.placeByte s.pc b0).placeByte (s.pc + 1#16) b1).placeByte (s.pc + 2#16) b2
  if t.holds3 b0 b1 b2 then t
  else ((s.placeInFront s.pc b0).placeInFront (s.pc + 1#16) b1).placeInFront (s.pc + 2#16) b2

/-- The state at an instruction boundary: no fault, not halted, the tick is `next`. -/
def State.atNextBoundary (s : State) : State := { s with fault := none, halted := false, next := s.cycles }

/-- IME cleared where the next tick would dispatch an interrupt instead of fetching. -/
def State.withoutDispatch (s : State) : State :=
  if (devicesStep s).recognised = none then s else { s with ime := false }

end Sys2Proof.Machine
end

