-- ==== Sys2Proof/Machine/Step.lean ====
section
/-! DEFINITION. One step of the machine is one tick (60_exceptions.md R420); a machine with a fault takes no
further tick and answers that fault (R381). -/

namespace Sys2Proof.Machine

/-- R381, R420. -/
def step (s : State) : Host.Outcome State Fault Refusal :=
  match s.fault with
  | some f => .fault f
  | none => tick s

/-- `s` with the instruction of an opcode-table word where the next step fetches, and at an instruction boundary
(log 6). -/
def State.withFetchWord (s : State) (nbits w : Nat) : State :=
  match tableBytes nbits w with
  | b0 :: b1 :: b2 :: _ => (s.atNextBoundary.placeAtPc b0 b1 b2).withoutDispatch
  | _ => s

end Sys2Proof.Machine
end

