-- ==== Sys2Proof/Machine/CostTable.lean ====
section
/-! DEFINITION. `CostTable` (00_scope.md section 5; 30_encoding.md R131; 70_reset_and_hazards.md R551): the columns
`length`, `cycles`, `extra_cycles_if_taken` of opcode_table.json, transcribed. The meanings carry their own numbers,
from the instruction rules; this table is the second source that the statements hold them against. -/

namespace Sys2Proof

/-- R131: a table entry's numbers. -/
structure TableEntry where
  length : Nat
  cycles : Nat
  extra : Nat
deriving DecidableEq, Repr

/-- The entry of each row. -/
def Instr.entry : Instr → TableEntry
  | .NOP => ⟨1, 1, 0⟩
  | .LD_BC_n16 _ => ⟨3, 3, 0⟩
  | .LD_atBC_A => ⟨1, 2, 0⟩
  | .INC_BC => ⟨1, 2, 0⟩
  | .INC_B => ⟨1, 1, 0⟩
  | .DEC_B => ⟨1, 1, 0⟩
  | .LD_B_n8 _ => ⟨2, 2, 0⟩
  | .RLCA => ⟨1, 1, 0⟩
  | .LD_atn16_SP _ => ⟨3, 5, 0⟩
  | .ADD_HL_BC => ⟨1, 2, 0⟩
  | .LD_A_atBC => ⟨1, 2, 0⟩
  | .DEC_BC => ⟨1, 2, 0⟩
  | .INC_C => ⟨1, 1, 0⟩
  | .DEC_C => ⟨1, 1, 0⟩
  | .LD_C_n8 _ => ⟨2, 2, 0⟩
  | .RRCA => ⟨1, 1, 0⟩
  | .STOP => ⟨1, 0, 0⟩
  | .LD_DE_n16 _ => ⟨3, 3, 0⟩
  | .LD_atDE_A => ⟨1, 2, 0⟩
  | .INC_DE => ⟨1, 2, 0⟩
  | .INC_D => ⟨1, 1, 0⟩
  | .DEC_D => ⟨1, 1, 0⟩
  | .LD_D_n8 _ => ⟨2, 2, 0⟩
  | .RLA => ⟨1, 1, 0⟩
  | .JR_e8 _ => ⟨2, 3, 0⟩
  | .ADD_HL_DE => ⟨1, 2, 0⟩
  | .LD_A_atDE => ⟨1, 2, 0⟩
  | .DEC_DE => ⟨1, 2, 0⟩
  | .INC_E => ⟨1, 1, 0⟩
  | .DEC_E => ⟨1, 1, 0⟩
  | .LD_E_n8 _ => ⟨2, 2, 0⟩
  | .RRA => ⟨1, 1, 0⟩
  | .JR_NZ_e8 _ => ⟨2, 2, 1⟩
  | .LD_HL_n16 _ => ⟨3, 3, 0⟩
  | .LD_atHLinc_A => ⟨1, 2, 0⟩
  | .INC_HL => ⟨1, 2, 0⟩
  | .INC_H => ⟨1, 1, 0⟩
  | .DEC_H => ⟨1, 1, 0⟩
  | .LD_H_n8 _ => ⟨2, 2, 0⟩
  | .DAA => ⟨1, 1, 0⟩
  | .JR_Z_e8 _ => ⟨2, 2, 1⟩
  | .ADD_HL_HL => ⟨1, 2, 0⟩
  | .LD_A_atHLinc => ⟨1, 2, 0⟩
  | .DEC_HL => ⟨1, 2, 0⟩
  | .INC_L => ⟨1, 1, 0⟩
  | .DEC_L => ⟨1, 1, 0⟩
  | .LD_L_n8 _ => ⟨2, 2, 0⟩
  | .CPL => ⟨1, 1, 0⟩
  | .JR_NC_e8 _ => ⟨2, 2, 1⟩
  | .LD_SP_n16 _ => ⟨3, 3, 0⟩
  | .LD_atHLdec_A => ⟨1, 2, 0⟩
  | .INC_SP => ⟨1, 2, 0⟩
  | .INC_atHL => ⟨1, 3, 0⟩
  | .DEC_atHL => ⟨1, 3, 0⟩
  | .LD_atHL_n8 _ => ⟨2, 3, 0⟩
  | .SCF => ⟨1, 1, 0⟩
  | .JR_C_e8 _ => ⟨2, 2, 1⟩
  | .ADD_HL_SP => ⟨1, 2, 0⟩
  | .LD_A_atHLdec => ⟨1, 2, 0⟩
  | .DEC_SP => ⟨1, 2, 0⟩
  | .INC_A => ⟨1, 1, 0⟩
  | .DEC_A => ⟨1, 1, 0⟩
  | .LD_A_n8 _ => ⟨2, 2, 0⟩
  | .CCF => ⟨1, 1, 0⟩
  | .LD_B_B => ⟨1, 1, 0⟩
  | .LD_B_C => ⟨1, 1, 0⟩
  | .LD_B_D => ⟨1, 1, 0⟩
  | .LD_B_E => ⟨1, 1, 0⟩
  | .LD_B_H => ⟨1, 1, 0⟩
  | .LD_B_L => ⟨1, 1, 0⟩
  | .LD_B_atHL => ⟨1, 2, 0⟩
  | .LD_B_A => ⟨1, 1, 0⟩
  | .LD_C_B => ⟨1, 1, 0⟩
  | .LD_C_C => ⟨1, 1, 0⟩
  | .LD_C_D => ⟨1, 1, 0⟩
  | .LD_C_E => ⟨1, 1, 0⟩
  | .LD_C_H => ⟨1, 1, 0⟩
  | .LD_C_L => ⟨1, 1, 0⟩
  | .LD_C_atHL => ⟨1, 2, 0⟩
  | .LD_C_A => ⟨1, 1, 0⟩
  | .LD_D_B => ⟨1, 1, 0⟩
  | .LD_D_C => ⟨1, 1, 0⟩
  | .LD_D_D => ⟨1, 1, 0⟩
  | .LD_D_E => ⟨1, 1, 0⟩
  | .LD_D_H => ⟨1, 1, 0⟩
  | .LD_D_L => ⟨1, 1, 0⟩
  | .LD_D_atHL => ⟨1, 2, 0⟩
  | .LD_D_A => ⟨1, 1, 0⟩
  | .LD_E_B => ⟨1, 1, 0⟩
  | .LD_E_C => ⟨1, 1, 0⟩
  | .LD_E_D => ⟨1, 1, 0⟩
  | .LD_E_E => ⟨1, 1, 0⟩
  | .LD_E_H => ⟨1, 1, 0⟩
  | .LD_E_L => ⟨1, 1, 0⟩
  | .LD_E_atHL => ⟨1, 2, 0⟩
  | .LD_E_A => ⟨1, 1, 0⟩
  | .LD_H_B => ⟨1, 1, 0⟩
  | .LD_H_C => ⟨1, 1, 0⟩
  | .LD_H_D => ⟨1, 1, 0⟩
  | .LD_H_E => ⟨1, 1, 0⟩
  | .LD_H_H => ⟨1, 1, 0⟩
  | .LD_H_L => ⟨1, 1, 0⟩
  | .LD_H_atHL => ⟨1, 2, 0⟩
  | .LD_H_A => ⟨1, 1, 0⟩
  | .LD_L_B => ⟨1, 1, 0⟩
  | .LD_L_C => ⟨1, 1, 0⟩
  | .LD_L_D => ⟨1, 1, 0⟩
  | .LD_L_E => ⟨1, 1, 0⟩
  | .LD_L_H => ⟨1, 1, 0⟩
  | .LD_L_L => ⟨1, 1, 0⟩
  | .LD_L_atHL => ⟨1, 2, 0⟩
  | .LD_L_A => ⟨1, 1, 0⟩
  | .LD_atHL_B => ⟨1, 2, 0⟩
  | .LD_atHL_C => ⟨1, 2, 0⟩
  | .LD_atHL_D => ⟨1, 2, 0⟩
  | .LD_atHL_E => ⟨1, 2, 0⟩
  | .LD_atHL_H => ⟨1, 2, 0⟩
  | .LD_atHL_L => ⟨1, 2, 0⟩
  | .HALT => ⟨1, 0, 0⟩
  | .LD_atHL_A => ⟨1, 2, 0⟩
  | .LD_A_B => ⟨1, 1, 0⟩
  | .LD_A_C => ⟨1, 1, 0⟩
  | .LD_A_D => ⟨1, 1, 0⟩
  | .LD_A_E => ⟨1, 1, 0⟩
  | .LD_A_H => ⟨1, 1, 0⟩
  | .LD_A_L => ⟨1, 1, 0⟩
  | .LD_A_atHL => ⟨1, 2, 0⟩
  | .LD_A_A => ⟨1, 1, 0⟩
  | .ADD_A_B => ⟨1, 1, 0⟩
  | .ADD_A_C => ⟨1, 1, 0⟩
  | .ADD_A_D => ⟨1, 1, 0⟩
  | .ADD_A_E => ⟨1, 1, 0⟩
  | .ADD_A_H => ⟨1, 1, 0⟩
  | .ADD_A_L => ⟨1, 1, 0⟩
  | .ADD_A_atHL => ⟨1, 2, 0⟩
  | .ADD_A_A => ⟨1, 1, 0⟩
  | .ADC_A_B => ⟨1, 1, 0⟩
  | .ADC_A_C => ⟨1, 1, 0⟩
  | .ADC_A_D => ⟨1, 1, 0⟩
  | .ADC_A_E => ⟨1, 1, 0⟩
  | .ADC_A_H => ⟨1, 1, 0⟩
  | .ADC_A_L => ⟨1, 1, 0⟩
  | .ADC_A_atHL => ⟨1, 2, 0⟩
  | .ADC_A_A => ⟨1, 1, 0⟩
  | .SUB_B => ⟨1, 1, 0⟩
  | .SUB_C => ⟨1, 1, 0⟩
  | .SUB_D => ⟨1, 1, 0⟩
  | .SUB_E => ⟨1, 1, 0⟩
  | .SUB_H => ⟨1, 1, 0⟩
  | .SUB_L => ⟨1, 1, 0⟩
  | .SUB_atHL => ⟨1, 2, 0⟩
  | .SUB_A => ⟨1, 1, 0⟩
  | .SBC_A_B => ⟨1, 1, 0⟩
  | .SBC_A_C => ⟨1, 1, 0⟩
  | .SBC_A_D => ⟨1, 1, 0⟩
  | .SBC_A_E => ⟨1, 1, 0⟩
  | .SBC_A_H => ⟨1, 1, 0⟩
  | .SBC_A_L => ⟨1, 1, 0⟩
  | .SBC_A_atHL => ⟨1, 2, 0⟩
  | .SBC_A_A => ⟨1, 1, 0⟩
  | .AND_B => ⟨1, 1, 0⟩
  | .AND_C => ⟨1, 1, 0⟩
  | .AND_D => ⟨1, 1, 0⟩
  | .AND_E => ⟨1, 1, 0⟩
  | .AND_H => ⟨1, 1, 0⟩
  | .AND_L => ⟨1, 1, 0⟩
  | .AND_atHL => ⟨1, 2, 0⟩
  | .AND_A => ⟨1, 1, 0⟩
  | .XOR_B => ⟨1, 1, 0⟩
  | .XOR_C => ⟨1, 1, 0⟩
  | .XOR_D => ⟨1, 1, 0⟩
  | .XOR_E => ⟨1, 1, 0⟩
  | .XOR_H => ⟨1, 1, 0⟩
  | .XOR_L => ⟨1, 1, 0⟩
  | .XOR_atHL => ⟨1, 2, 0⟩
  | .XOR_A => ⟨1, 1, 0⟩
  | .OR_B => ⟨1, 1, 0⟩
  | .OR_C => ⟨1, 1, 0⟩
  | .OR_D => ⟨1, 1, 0⟩
  | .OR_E => ⟨1, 1, 0⟩
  | .OR_H => ⟨1, 1, 0⟩
  | .OR_L => ⟨1, 1, 0⟩
  | .OR_atHL => ⟨1, 2, 0⟩
  | .OR_A => ⟨1, 1, 0⟩
  | .CP_B => ⟨1, 1, 0⟩
  | .CP_C => ⟨1, 1, 0⟩
  | .CP_D => ⟨1, 1, 0⟩
  | .CP_E => ⟨1, 1, 0⟩
  | .CP_H => ⟨1, 1, 0⟩
  | .CP_L => ⟨1, 1, 0⟩
  | .CP_atHL => ⟨1, 2, 0⟩
  | .CP_A => ⟨1, 1, 0⟩
  | .RET_NZ => ⟨1, 2, 3⟩
  | .POP_BC => ⟨1, 3, 0⟩
  | .JP_NZ_n16 _ => ⟨3, 3, 1⟩
  | .JP_n16 _ => ⟨3, 4, 0⟩
  | .CALL_NZ_n16 _ => ⟨3, 3, 3⟩
  | .PUSH_BC => ⟨1, 4, 0⟩
  | .ADD_A_n8 _ => ⟨2, 2, 0⟩
  | .RST_00h => ⟨1, 4, 0⟩
  | .RET_Z => ⟨1, 2, 3⟩
  | .RET => ⟨1, 4, 0⟩
  | .JP_Z_n16 _ => ⟨3, 3, 1⟩
  | .PREFIX_CB => ⟨1, 0, 0⟩
  | .CALL_Z_n16 _ => ⟨3, 3, 3⟩
  | .CALL_n16 _ => ⟨3, 6, 0⟩
  | .ADC_A_n8 _ => ⟨2, 2, 0⟩
  | .RST_08h => ⟨1, 4, 0⟩
  | .RET_NC => ⟨1, 2, 3⟩
  | .POP_DE => ⟨1, 3, 0⟩
  | .JP_NC_n16 _ => ⟨3, 3, 1⟩
  | .ILLEGAL_D3 => ⟨1, 0, 0⟩
  | .CALL_NC_n16 _ => ⟨3, 3, 3⟩
  | .PUSH_DE => ⟨1, 4, 0⟩
  | .SUB_n8 _ => ⟨2, 2, 0⟩
  | .RST_10h => ⟨1, 4, 0⟩
  | .RET_C => ⟨1, 2, 3⟩
  | .RETI => ⟨1, 4, 0⟩
  | .JP_C_n16 _ => ⟨3, 3, 1⟩
  | .ILLEGAL_DB => ⟨1, 0, 0⟩
  | .CALL_C_n16 _ => ⟨3, 3, 3⟩
  | .ILLEGAL_DD => ⟨1, 0, 0⟩
  | .SBC_A_n8 _ => ⟨2, 2, 0⟩
  | .RST_18h => ⟨1, 4, 0⟩
  | .LDH_atn8_A _ => ⟨2, 3, 0⟩
  | .POP_HL => ⟨1, 3, 0⟩
  | .LD_atC_A => ⟨1, 2, 0⟩
  | .ILLEGAL_E3 => ⟨1, 0, 0⟩
  | .ILLEGAL_E4 => ⟨1, 0, 0⟩
  | .PUSH_HL => ⟨1, 4, 0⟩
  | .AND_n8 _ => ⟨2, 2, 0⟩
  | .RST_20h => ⟨1, 4, 0⟩
  | .ADD_SP_e8 _ => ⟨2, 4, 0⟩
  | .JP_HL => ⟨1, 1, 0⟩
  | .LD_atn16_A _ => ⟨3, 4, 0⟩
  | .ILLEGAL_EB => ⟨1, 0, 0⟩
  | .ILLEGAL_EC => ⟨1, 0, 0⟩
  | .ILLEGAL_ED => ⟨1, 0, 0⟩
  | .XOR_n8 _ => ⟨2, 2, 0⟩
  | .RST_28h => ⟨1, 4, 0⟩
  | .LDH_A_atn8 _ => ⟨2, 3, 0⟩
  | .POP_AF => ⟨1, 3, 0⟩
  | .LD_A_atC => ⟨1, 2, 0⟩
  | .DI => ⟨1, 1, 0⟩
  | .ILLEGAL_F4 => ⟨1, 0, 0⟩
  | .PUSH_AF => ⟨1, 4, 0⟩
  | .OR_n8 _ => ⟨2, 2, 0⟩
  | .RST_30h => ⟨1, 4, 0⟩
  | .LD_HL_SPe8 _ => ⟨2, 3, 0⟩
  | .LD_SP_HL => ⟨1, 2, 0⟩
  | .LD_A_atn16 _ => ⟨3, 4, 0⟩
  | .EI => ⟨1, 1, 0⟩
  | .ILLEGAL_FC => ⟨1, 0, 0⟩
  | .ILLEGAL_FD => ⟨1, 0, 0⟩
  | .CP_n8 _ => ⟨2, 2, 0⟩
  | .RST_38h => ⟨1, 4, 0⟩
  | .RLC_B => ⟨2, 2, 0⟩
  | .RLC_C => ⟨2, 2, 0⟩
  | .RLC_D => ⟨2, 2, 0⟩
  | .RLC_E => ⟨2, 2, 0⟩
  | .RLC_H => ⟨2, 2, 0⟩
  | .RLC_L => ⟨2, 2, 0⟩
  | .RLC_atHL => ⟨2, 4, 0⟩
  | .RLC_A => ⟨2, 2, 0⟩
  | .RRC_B => ⟨2, 2, 0⟩
  | .RRC_C => ⟨2, 2, 0⟩
  | .RRC_D => ⟨2, 2, 0⟩
  | .RRC_E => ⟨2, 2, 0⟩
  | .RRC_H => ⟨2, 2, 0⟩
  | .RRC_L => ⟨2, 2, 0⟩
  | .RRC_atHL => ⟨2, 4, 0⟩
  | .RRC_A => ⟨2, 2, 0⟩
  | .RL_B => ⟨2, 2, 0⟩
  | .RL_C => ⟨2, 2, 0⟩
  | .RL_D => ⟨2, 2, 0⟩
  | .RL_E => ⟨2, 2, 0⟩
  | .RL_H => ⟨2, 2, 0⟩
  | .RL_L => ⟨2, 2, 0⟩
  | .RL_atHL => ⟨2, 4, 0⟩
  | .RL_A => ⟨2, 2, 0⟩
  | .RR_B => ⟨2, 2, 0⟩
  | .RR_C => ⟨2, 2, 0⟩
  | .RR_D => ⟨2, 2, 0⟩
  | .RR_E => ⟨2, 2, 0⟩
  | .RR_H => ⟨2, 2, 0⟩
  | .RR_L => ⟨2, 2, 0⟩
  | .RR_atHL => ⟨2, 4, 0⟩
  | .RR_A => ⟨2, 2, 0⟩
  | .SLA_B => ⟨2, 2, 0⟩
  | .SLA_C => ⟨2, 2, 0⟩
  | .SLA_D => ⟨2, 2, 0⟩
  | .SLA_E => ⟨2, 2, 0⟩
  | .SLA_H => ⟨2, 2, 0⟩
  | .SLA_L => ⟨2, 2, 0⟩
  | .SLA_atHL => ⟨2, 4, 0⟩
  | .SLA_A => ⟨2, 2, 0⟩
  | .SRA_B => ⟨2, 2, 0⟩
  | .SRA_C => ⟨2, 2, 0⟩
  | .SRA_D => ⟨2, 2, 0⟩
  | .SRA_E => ⟨2, 2, 0⟩
  | .SRA_H => ⟨2, 2, 0⟩
  | .SRA_L => ⟨2, 2, 0⟩
  | .SRA_atHL => ⟨2, 4, 0⟩
  | .SRA_A => ⟨2, 2, 0⟩
  | .SWAP_B => ⟨2, 2, 0⟩
  | .SWAP_C => ⟨2, 2, 0⟩
  | .SWAP_D => ⟨2, 2, 0⟩
  | .SWAP_E => ⟨2, 2, 0⟩
  | .SWAP_H => ⟨2, 2, 0⟩
  | .SWAP_L => ⟨2, 2, 0⟩
  | .SWAP_atHL => ⟨2, 4, 0⟩
  | .SWAP_A => ⟨2, 2, 0⟩
  | .SRL_B => ⟨2, 2, 0⟩
  | .SRL_C => ⟨2, 2, 0⟩
  | .SRL_D => ⟨2, 2, 0⟩
  | .SRL_E => ⟨2, 2, 0⟩
  | .SRL_H => ⟨2, 2, 0⟩
  | .SRL_L => ⟨2, 2, 0⟩
  | .SRL_atHL => ⟨2, 4, 0⟩
  | .SRL_A => ⟨2, 2, 0⟩
  | .BIT_0_B => ⟨2, 2, 0⟩
  | .BIT_0_C => ⟨2, 2, 0⟩
  | .BIT_0_D => ⟨2, 2, 0⟩
  | .BIT_0_E => ⟨2, 2, 0⟩
  | .BIT_0_H => ⟨2, 2, 0⟩
  | .BIT_0_L => ⟨2, 2, 0⟩
  | .BIT_0_atHL => ⟨2, 3, 0⟩
  | .BIT_0_A => ⟨2, 2, 0⟩
  | .BIT_1_B => ⟨2, 2, 0⟩
  | .BIT_1_C => ⟨2, 2, 0⟩
  | .BIT_1_D => ⟨2, 2, 0⟩
  | .BIT_1_E => ⟨2, 2, 0⟩
  | .BIT_1_H => ⟨2, 2, 0⟩
  | .BIT_1_L => ⟨2, 2, 0⟩
  | .BIT_1_atHL => ⟨2, 3, 0⟩
  | .BIT_1_A => ⟨2, 2, 0⟩
  | .BIT_2_B => ⟨2, 2, 0⟩
  | .BIT_2_C => ⟨2, 2, 0⟩
  | .BIT_2_D => ⟨2, 2, 0⟩
  | .BIT_2_E => ⟨2, 2, 0⟩
  | .BIT_2_H => ⟨2, 2, 0⟩
  | .BIT_2_L => ⟨2, 2, 0⟩
  | .BIT_2_atHL => ⟨2, 3, 0⟩
  | .BIT_2_A => ⟨2, 2, 0⟩
  | .BIT_3_B => ⟨2, 2, 0⟩
  | .BIT_3_C => ⟨2, 2, 0⟩
  | .BIT_3_D => ⟨2, 2, 0⟩
  | .BIT_3_E => ⟨2, 2, 0⟩
  | .BIT_3_H => ⟨2, 2, 0⟩
  | .BIT_3_L => ⟨2, 2, 0⟩
  | .BIT_3_atHL => ⟨2, 3, 0⟩
  | .BIT_3_A => ⟨2, 2, 0⟩
  | .BIT_4_B => ⟨2, 2, 0⟩
  | .BIT_4_C => ⟨2, 2, 0⟩
  | .BIT_4_D => ⟨2, 2, 0⟩
  | .BIT_4_E => ⟨2, 2, 0⟩
  | .BIT_4_H => ⟨2, 2, 0⟩
  | .BIT_4_L => ⟨2, 2, 0⟩
  | .BIT_4_atHL => ⟨2, 3, 0⟩
  | .BIT_4_A => ⟨2, 2, 0⟩
  | .BIT_5_B => ⟨2, 2, 0⟩
  | .BIT_5_C => ⟨2, 2, 0⟩
  | .BIT_5_D => ⟨2, 2, 0⟩
  | .BIT_5_E => ⟨2, 2, 0⟩
  | .BIT_5_H => ⟨2, 2, 0⟩
  | .BIT_5_L => ⟨2, 2, 0⟩
  | .BIT_5_atHL => ⟨2, 3, 0⟩
  | .BIT_5_A => ⟨2, 2, 0⟩
  | .BIT_6_B => ⟨2, 2, 0⟩
  | .BIT_6_C => ⟨2, 2, 0⟩
  | .BIT_6_D => ⟨2, 2, 0⟩
  | .BIT_6_E => ⟨2, 2, 0⟩
  | .BIT_6_H => ⟨2, 2, 0⟩
  | .BIT_6_L => ⟨2, 2, 0⟩
  | .BIT_6_atHL => ⟨2, 3, 0⟩
  | .BIT_6_A => ⟨2, 2, 0⟩
  | .BIT_7_B => ⟨2, 2, 0⟩
  | .BIT_7_C => ⟨2, 2, 0⟩
  | .BIT_7_D => ⟨2, 2, 0⟩
  | .BIT_7_E => ⟨2, 2, 0⟩
  | .BIT_7_H => ⟨2, 2, 0⟩
  | .BIT_7_L => ⟨2, 2, 0⟩
  | .BIT_7_atHL => ⟨2, 3, 0⟩
  | .BIT_7_A => ⟨2, 2, 0⟩
  | .RES_0_B => ⟨2, 2, 0⟩
  | .RES_0_C => ⟨2, 2, 0⟩
  | .RES_0_D => ⟨2, 2, 0⟩
  | .RES_0_E => ⟨2, 2, 0⟩
  | .RES_0_H => ⟨2, 2, 0⟩
  | .RES_0_L => ⟨2, 2, 0⟩
  | .RES_0_atHL => ⟨2, 4, 0⟩
  | .RES_0_A => ⟨2, 2, 0⟩
  | .RES_1_B => ⟨2, 2, 0⟩
  | .RES_1_C => ⟨2, 2, 0⟩
  | .RES_1_D => ⟨2, 2, 0⟩
  | .RES_1_E => ⟨2, 2, 0⟩
  | .RES_1_H => ⟨2, 2, 0⟩
  | .RES_1_L => ⟨2, 2, 0⟩
  | .RES_1_atHL => ⟨2, 4, 0⟩
  | .RES_1_A => ⟨2, 2, 0⟩
  | .RES_2_B => ⟨2, 2, 0⟩
  | .RES_2_C => ⟨2, 2, 0⟩
  | .RES_2_D => ⟨2, 2, 0⟩
  | .RES_2_E => ⟨2, 2, 0⟩
  | .RES_2_H => ⟨2, 2, 0⟩
  | .RES_2_L => ⟨2, 2, 0⟩
  | .RES_2_atHL => ⟨2, 4, 0⟩
  | .RES_2_A => ⟨2, 2, 0⟩
  | .RES_3_B => ⟨2, 2, 0⟩
  | .RES_3_C => ⟨2, 2, 0⟩
  | .RES_3_D => ⟨2, 2, 0⟩
  | .RES_3_E => ⟨2, 2, 0⟩
  | .RES_3_H => ⟨2, 2, 0⟩
  | .RES_3_L => ⟨2, 2, 0⟩
  | .RES_3_atHL => ⟨2, 4, 0⟩
  | .RES_3_A => ⟨2, 2, 0⟩
  | .RES_4_B => ⟨2, 2, 0⟩
  | .RES_4_C => ⟨2, 2, 0⟩
  | .RES_4_D => ⟨2, 2, 0⟩
  | .RES_4_E => ⟨2, 2, 0⟩
  | .RES_4_H => ⟨2, 2, 0⟩
  | .RES_4_L => ⟨2, 2, 0⟩
  | .RES_4_atHL => ⟨2, 4, 0⟩
  | .RES_4_A => ⟨2, 2, 0⟩
  | .RES_5_B => ⟨2, 2, 0⟩
  | .RES_5_C => ⟨2, 2, 0⟩
  | .RES_5_D => ⟨2, 2, 0⟩
  | .RES_5_E => ⟨2, 2, 0⟩
  | .RES_5_H => ⟨2, 2, 0⟩
  | .RES_5_L => ⟨2, 2, 0⟩
  | .RES_5_atHL => ⟨2, 4, 0⟩
  | .RES_5_A => ⟨2, 2, 0⟩
  | .RES_6_B => ⟨2, 2, 0⟩
  | .RES_6_C => ⟨2, 2, 0⟩
  | .RES_6_D => ⟨2, 2, 0⟩
  | .RES_6_E => ⟨2, 2, 0⟩
  | .RES_6_H => ⟨2, 2, 0⟩
  | .RES_6_L => ⟨2, 2, 0⟩
  | .RES_6_atHL => ⟨2, 4, 0⟩
  | .RES_6_A => ⟨2, 2, 0⟩
  | .RES_7_B => ⟨2, 2, 0⟩
  | .RES_7_C => ⟨2, 2, 0⟩
  | .RES_7_D => ⟨2, 2, 0⟩
  | .RES_7_E => ⟨2, 2, 0⟩
  | .RES_7_H => ⟨2, 2, 0⟩
  | .RES_7_L => ⟨2, 2, 0⟩
  | .RES_7_atHL => ⟨2, 4, 0⟩
  | .RES_7_A => ⟨2, 2, 0⟩
  | .SET_0_B => ⟨2, 2, 0⟩
  | .SET_0_C => ⟨2, 2, 0⟩
  | .SET_0_D => ⟨2, 2, 0⟩
  | .SET_0_E => ⟨2, 2, 0⟩
  | .SET_0_H => ⟨2, 2, 0⟩
  | .SET_0_L => ⟨2, 2, 0⟩
  | .SET_0_atHL => ⟨2, 4, 0⟩
  | .SET_0_A => ⟨2, 2, 0⟩
  | .SET_1_B => ⟨2, 2, 0⟩
  | .SET_1_C => ⟨2, 2, 0⟩
  | .SET_1_D => ⟨2, 2, 0⟩
  | .SET_1_E => ⟨2, 2, 0⟩
  | .SET_1_H => ⟨2, 2, 0⟩
  | .SET_1_L => ⟨2, 2, 0⟩
  | .SET_1_atHL => ⟨2, 4, 0⟩
  | .SET_1_A => ⟨2, 2, 0⟩
  | .SET_2_B => ⟨2, 2, 0⟩
  | .SET_2_C => ⟨2, 2, 0⟩
  | .SET_2_D => ⟨2, 2, 0⟩
  | .SET_2_E => ⟨2, 2, 0⟩
  | .SET_2_H => ⟨2, 2, 0⟩
  | .SET_2_L => ⟨2, 2, 0⟩
  | .SET_2_atHL => ⟨2, 4, 0⟩
  | .SET_2_A => ⟨2, 2, 0⟩
  | .SET_3_B => ⟨2, 2, 0⟩
  | .SET_3_C => ⟨2, 2, 0⟩
  | .SET_3_D => ⟨2, 2, 0⟩
  | .SET_3_E => ⟨2, 2, 0⟩
  | .SET_3_H => ⟨2, 2, 0⟩
  | .SET_3_L => ⟨2, 2, 0⟩
  | .SET_3_atHL => ⟨2, 4, 0⟩
  | .SET_3_A => ⟨2, 2, 0⟩
  | .SET_4_B => ⟨2, 2, 0⟩
  | .SET_4_C => ⟨2, 2, 0⟩
  | .SET_4_D => ⟨2, 2, 0⟩
  | .SET_4_E => ⟨2, 2, 0⟩
  | .SET_4_H => ⟨2, 2, 0⟩
  | .SET_4_L => ⟨2, 2, 0⟩
  | .SET_4_atHL => ⟨2, 4, 0⟩
  | .SET_4_A => ⟨2, 2, 0⟩
  | .SET_5_B => ⟨2, 2, 0⟩
  | .SET_5_C => ⟨2, 2, 0⟩
  | .SET_5_D => ⟨2, 2, 0⟩
  | .SET_5_E => ⟨2, 2, 0⟩
  | .SET_5_H => ⟨2, 2, 0⟩
  | .SET_5_L => ⟨2, 2, 0⟩
  | .SET_5_atHL => ⟨2, 4, 0⟩
  | .SET_5_A => ⟨2, 2, 0⟩
  | .SET_6_B => ⟨2, 2, 0⟩
  | .SET_6_C => ⟨2, 2, 0⟩
  | .SET_6_D => ⟨2, 2, 0⟩
  | .SET_6_E => ⟨2, 2, 0⟩
  | .SET_6_H => ⟨2, 2, 0⟩
  | .SET_6_L => ⟨2, 2, 0⟩
  | .SET_6_atHL => ⟨2, 4, 0⟩
  | .SET_6_A => ⟨2, 2, 0⟩
  | .SET_7_B => ⟨2, 2, 0⟩
  | .SET_7_C => ⟨2, 2, 0⟩
  | .SET_7_D => ⟨2, 2, 0⟩
  | .SET_7_E => ⟨2, 2, 0⟩
  | .SET_7_H => ⟨2, 2, 0⟩
  | .SET_7_L => ⟨2, 2, 0⟩
  | .SET_7_atHL => ⟨2, 4, 0⟩
  | .SET_7_A => ⟨2, 2, 0⟩

end Sys2Proof
end

