-- ==== Sys2Proof/Machine/Forms.lean ====
section
/-! DEFINITION. The instruction forms: the spec's families ("a group of opcodes sharing one decode helper and one
semantics", 00_scope.md section 7) with their operands. No meaning is given by them: they name, for the statements,
which rule an instruction falls under. -/

namespace Sys2Proof

/-- One constructor per instruction rule of files 41 to 47 (the rules of a two-operand operation are one form). -/
inductive Form where
  /-- R360 -/
  | nop
  /-- R366 -/
  | halt
  /-- R367 -/
  | stop
  /-- R368 -/
  | illegal (byte : Byte)
  /-- R124 -/
  | prefixed
  /-- R210 -/
  | ldRegReg (d r : R8)
  /-- R211 -/
  | ldRegImm (d : R8) (n : Byte)
  /-- R212 -/
  | ldRegHl (d : R8)
  /-- R213 -/
  | ldHlReg (r : R8)
  /-- R214 -/
  | ldHlImm (n : Byte)
  /-- R215, R216, R219, R220 -/
  | ldAInd (i : Ind)
  /-- R217, R218, R221, R222 -/
  | ldIndA (i : Ind)
  /-- R223 -/
  | ldhLoad (n : Byte)
  /-- R224 -/
  | ldhStore (n : Byte)
  /-- R225 -/
  | ldCLoad
  /-- R226 -/
  | ldCStore
  /-- R227 -/
  | ldAbsLoad (nn : Word)
  /-- R228 -/
  | ldAbsStore (nn : Word)
  /-- R229 -/
  | ldPairImm (p : R16) (nn : Word)
  /-- R230 -/
  | ldAbsSp (nn : Word)
  /-- R231 -/
  | ldSpHl
  /-- R232 -/
  | push (p : R16S)
  /-- R233 -/
  | pop (p : R16S)
  /-- R250, R253, R256, R259, R262, R290, R293, R296 -/
  | aluReg (op : AluOp) (r : R8)
  /-- R251, R254, R257, R260, R263, R291, R294, R297 -/
  | aluImm (op : AluOp) (n : Byte)
  /-- R252, R255, R258, R261, R264, R292, R295, R298 -/
  | aluHl (op : AluOp)
  /-- R265 -/
  | incReg (r : R8)
  /-- R267 -/
  | decReg (r : R8)
  /-- R266 -/
  | incHl
  /-- R268 -/
  | decHl
  /-- R269 -/
  | incPair (p : R16)
  /-- R270 -/
  | decPair (p : R16)
  /-- R271 -/
  | addHl (p : R16)
  /-- R272 -/
  | addSp (e : Byte)
  /-- R273 -/
  | ldHlSp (e : Byte)
  /-- R299 -/
  | cpl
  /-- R361 -/
  | daa
  /-- R362 -/
  | scf
  /-- R363 -/
  | ccf
  /-- R300 to R303 -/
  | rotA (k : RotOp)
  /-- R304 to R318, even numbers -/
  | rotReg (k : RotOp) (r : R8)
  /-- R305 to R319, odd numbers -/
  | rotHl (k : RotOp)
  /-- R330 -/
  | bitReg (b : Field3) (r : R8)
  /-- R331 -/
  | bitHl (b : Field3)
  /-- R332 -/
  | resReg (b : Field3) (r : R8)
  /-- R333 -/
  | resHl (b : Field3)
  /-- R334 -/
  | setReg (b : Field3) (r : R8)
  /-- R335 -/
  | setHl (b : Field3)
  /-- R340 -/
  | jp (nn : Word)
  /-- R341 -/
  | jpCond (c : Cond) (nn : Word)
  /-- R342 -/
  | jpHl
  /-- R343 -/
  | jr (e : Byte)
  /-- R344 -/
  | jrCond (c : Cond) (e : Byte)
  /-- R345 -/
  | call (nn : Word)
  /-- R346 -/
  | callCond (c : Cond) (nn : Word)
  /-- R347 -/
  | ret
  /-- R348 -/
  | retCond (c : Cond)
  /-- R349 -/
  | reti
  /-- R350 -/
  | rst (t : Field3)
  /-- R364 -/
  | di
  /-- R365 -/
  | ei
deriving DecidableEq, Repr

/-- The form of an instruction. -/
def Instr.form : Instr → Form
  | .NOP => .nop
  | .LD_BC_n16 nn => .ldPairImm .BC nn
  | .LD_atBC_A => .ldIndA .BC
  | .INC_BC => .incPair .BC
  | .INC_B => .incReg .B
  | .DEC_B => .decReg .B
  | .LD_B_n8 n => .ldRegImm .B n
  | .RLCA => .rotA .RLC
  | .LD_atn16_SP nn => .ldAbsSp nn
  | .ADD_HL_BC => .addHl .BC
  | .LD_A_atBC => .ldAInd .BC
  | .DEC_BC => .decPair .BC
  | .INC_C => .incReg .C
  | .DEC_C => .decReg .C
  | .LD_C_n8 n => .ldRegImm .C n
  | .RRCA => .rotA .RRC
  | .STOP => .stop
  | .LD_DE_n16 nn => .ldPairImm .DE nn
  | .LD_atDE_A => .ldIndA .DE
  | .INC_DE => .incPair .DE
  | .INC_D => .incReg .D
  | .DEC_D => .decReg .D
  | .LD_D_n8 n => .ldRegImm .D n
  | .RLA => .rotA .RL
  | .JR_e8 e => .jr e
  | .ADD_HL_DE => .addHl .DE
  | .LD_A_atDE => .ldAInd .DE
  | .DEC_DE => .decPair .DE
  | .INC_E => .incReg .E
  | .DEC_E => .decReg .E
  | .LD_E_n8 n => .ldRegImm .E n
  | .RRA => .rotA .RR
  | .JR_NZ_e8 e => .jrCond .NZ e
  | .LD_HL_n16 nn => .ldPairImm .HL nn
  | .LD_atHLinc_A => .ldIndA .HLinc
  | .INC_HL => .incPair .HL
  | .INC_H => .incReg .H
  | .DEC_H => .decReg .H
  | .LD_H_n8 n => .ldRegImm .H n
  | .DAA => .daa
  | .JR_Z_e8 e => .jrCond .Z e
  | .ADD_HL_HL => .addHl .HL
  | .LD_A_atHLinc => .ldAInd .HLinc
  | .DEC_HL => .decPair .HL
  | .INC_L => .incReg .L
  | .DEC_L => .decReg .L
  | .LD_L_n8 n => .ldRegImm .L n
  | .CPL => .cpl
  | .JR_NC_e8 e => .jrCond .NC e
  | .LD_SP_n16 nn => .ldPairImm .SP nn
  | .LD_atHLdec_A => .ldIndA .HLdec
  | .INC_SP => .incPair .SP
  | .INC_atHL => .incHl
  | .DEC_atHL => .decHl
  | .LD_atHL_n8 n => .ldHlImm n
  | .SCF => .scf
  | .JR_C_e8 e => .jrCond .C e
  | .ADD_HL_SP => .addHl .SP
  | .LD_A_atHLdec => .ldAInd .HLdec
  | .DEC_SP => .decPair .SP
  | .INC_A => .incReg .A
  | .DEC_A => .decReg .A
  | .LD_A_n8 n => .ldRegImm .A n
  | .CCF => .ccf
  | .LD_B_B => .ldRegReg .B .B
  | .LD_B_C => .ldRegReg .B .C
  | .LD_B_D => .ldRegReg .B .D
  | .LD_B_E => .ldRegReg .B .E
  | .LD_B_H => .ldRegReg .B .H
  | .LD_B_L => .ldRegReg .B .L
  | .LD_B_atHL => .ldRegHl .B
  | .LD_B_A => .ldRegReg .B .A
  | .LD_C_B => .ldRegReg .C .B
  | .LD_C_C => .ldRegReg .C .C
  | .LD_C_D => .ldRegReg .C .D
  | .LD_C_E => .ldRegReg .C .E
  | .LD_C_H => .ldRegReg .C .H
  | .LD_C_L => .ldRegReg .C .L
  | .LD_C_atHL => .ldRegHl .C
  | .LD_C_A => .ldRegReg .C .A
  | .LD_D_B => .ldRegReg .D .B
  | .LD_D_C => .ldRegReg .D .C
  | .LD_D_D => .ldRegReg .D .D
  | .LD_D_E => .ldRegReg .D .E
  | .LD_D_H => .ldRegReg .D .H
  | .LD_D_L => .ldRegReg .D .L
  | .LD_D_atHL => .ldRegHl .D
  | .LD_D_A => .ldRegReg .D .A
  | .LD_E_B => .ldRegReg .E .B
  | .LD_E_C => .ldRegReg .E .C
  | .LD_E_D => .ldRegReg .E .D
  | .LD_E_E => .ldRegReg .E .E
  | .LD_E_H => .ldRegReg .E .H
  | .LD_E_L => .ldRegReg .E .L
  | .LD_E_atHL => .ldRegHl .E
  | .LD_E_A => .ldRegReg .E .A
  | .LD_H_B => .ldRegReg .H .B
  | .LD_H_C => .ldRegReg .H .C
  | .LD_H_D => .ldRegReg .H .D
  | .LD_H_E => .ldRegReg .H .E
  | .LD_H_H => .ldRegReg .H .H
  | .LD_H_L => .ldRegReg .H .L
  | .LD_H_atHL => .ldRegHl .H
  | .LD_H_A => .ldRegReg .H .A
  | .LD_L_B => .ldRegReg .L .B
  | .LD_L_C => .ldRegReg .L .C
  | .LD_L_D => .ldRegReg .L .D
  | .LD_L_E => .ldRegReg .L .E
  | .LD_L_H => .ldRegReg .L .H
  | .LD_L_L => .ldRegReg .L .L
  | .LD_L_atHL => .ldRegHl .L
  | .LD_L_A => .ldRegReg .L .A
  | .LD_atHL_B => .ldHlReg .B
  | .LD_atHL_C => .ldHlReg .C
  | .LD_atHL_D => .ldHlReg .D
  | .LD_atHL_E => .ldHlReg .E
  | .LD_atHL_H => .ldHlReg .H
  | .LD_atHL_L => .ldHlReg .L
  | .HALT => .halt
  | .LD_atHL_A => .ldHlReg .A
  | .LD_A_B => .ldRegReg .A .B
  | .LD_A_C => .ldRegReg .A .C
  | .LD_A_D => .ldRegReg .A .D
  | .LD_A_E => .ldRegReg .A .E
  | .LD_A_H => .ldRegReg .A .H
  | .LD_A_L => .ldRegReg .A .L
  | .LD_A_atHL => .ldRegHl .A
  | .LD_A_A => .ldRegReg .A .A
  | .ADD_A_B => .aluReg .ADD .B
  | .ADD_A_C => .aluReg .ADD .C
  | .ADD_A_D => .aluReg .ADD .D
  | .ADD_A_E => .aluReg .ADD .E
  | .ADD_A_H => .aluReg .ADD .H
  | .ADD_A_L => .aluReg .ADD .L
  | .ADD_A_atHL => .aluHl .ADD
  | .ADD_A_A => .aluReg .ADD .A
  | .ADC_A_B => .aluReg .ADC .B
  | .ADC_A_C => .aluReg .ADC .C
  | .ADC_A_D => .aluReg .ADC .D
  | .ADC_A_E => .aluReg .ADC .E
  | .ADC_A_H => .aluReg .ADC .H
  | .ADC_A_L => .aluReg .ADC .L
  | .ADC_A_atHL => .aluHl .ADC
  | .ADC_A_A => .aluReg .ADC .A
  | .SUB_B => .aluReg .SUB .B
  | .SUB_C => .aluReg .SUB .C
  | .SUB_D => .aluReg .SUB .D
  | .SUB_E => .aluReg .SUB .E
  | .SUB_H => .aluReg .SUB .H
  | .SUB_L => .aluReg .SUB .L
  | .SUB_atHL => .aluHl .SUB
  | .SUB_A => .aluReg .SUB .A
  | .SBC_A_B => .aluReg .SBC .B
  | .SBC_A_C => .aluReg .SBC .C
  | .SBC_A_D => .aluReg .SBC .D
  | .SBC_A_E => .aluReg .SBC .E
  | .SBC_A_H => .aluReg .SBC .H
  | .SBC_A_L => .aluReg .SBC .L
  | .SBC_A_atHL => .aluHl .SBC
  | .SBC_A_A => .aluReg .SBC .A
  | .AND_B => .aluReg .AND .B
  | .AND_C => .aluReg .AND .C
  | .AND_D => .aluReg .AND .D
  | .AND_E => .aluReg .AND .E
  | .AND_H => .aluReg .AND .H
  | .AND_L => .aluReg .AND .L
  | .AND_atHL => .aluHl .AND
  | .AND_A => .aluReg .AND .A
  | .XOR_B => .aluReg .XOR .B
  | .XOR_C => .aluReg .XOR .C
  | .XOR_D => .aluReg .XOR .D
  | .XOR_E => .aluReg .XOR .E
  | .XOR_H => .aluReg .XOR .H
  | .XOR_L => .aluReg .XOR .L
  | .XOR_atHL => .aluHl .XOR
  | .XOR_A => .aluReg .XOR .A
  | .OR_B => .aluReg .OR .B
  | .OR_C => .aluReg .OR .C
  | .OR_D => .aluReg .OR .D
  | .OR_E => .aluReg .OR .E
  | .OR_H => .aluReg .OR .H
  | .OR_L => .aluReg .OR .L
  | .OR_atHL => .aluHl .OR
  | .OR_A => .aluReg .OR .A
  | .CP_B => .aluReg .CP .B
  | .CP_C => .aluReg .CP .C
  | .CP_D => .aluReg .CP .D
  | .CP_E => .aluReg .CP .E
  | .CP_H => .aluReg .CP .H
  | .CP_L => .aluReg .CP .L
  | .CP_atHL => .aluHl .CP
  | .CP_A => .aluReg .CP .A
  | .RET_NZ => .retCond .NZ
  | .POP_BC => .pop .BC
  | .JP_NZ_n16 nn => .jpCond .NZ nn
  | .JP_n16 nn => .jp nn
  | .CALL_NZ_n16 nn => .callCond .NZ nn
  | .PUSH_BC => .push .BC
  | .ADD_A_n8 n => .aluImm .ADD n
  | .RST_00h => .rst .f0
  | .RET_Z => .retCond .Z
  | .RET => .ret
  | .JP_Z_n16 nn => .jpCond .Z nn
  | .PREFIX_CB => .prefixed
  | .CALL_Z_n16 nn => .callCond .Z nn
  | .CALL_n16 nn => .call nn
  | .ADC_A_n8 n => .aluImm .ADC n
  | .RST_08h => .rst .f1
  | .RET_NC => .retCond .NC
  | .POP_DE => .pop .DE
  | .JP_NC_n16 nn => .jpCond .NC nn
  | .ILLEGAL_D3 => .illegal 0xD3#8
  | .CALL_NC_n16 nn => .callCond .NC nn
  | .PUSH_DE => .push .DE
  | .SUB_n8 n => .aluImm .SUB n
  | .RST_10h => .rst .f2
  | .RET_C => .retCond .C
  | .RETI => .reti
  | .JP_C_n16 nn => .jpCond .C nn
  | .ILLEGAL_DB => .illegal 0xDB#8
  | .CALL_C_n16 nn => .callCond .C nn
  | .ILLEGAL_DD => .illegal 0xDD#8
  | .SBC_A_n8 n => .aluImm .SBC n
  | .RST_18h => .rst .f3
  | .LDH_atn8_A n => .ldhStore n
  | .POP_HL => .pop .HL
  | .LD_atC_A => .ldCStore
  | .ILLEGAL_E3 => .illegal 0xE3#8
  | .ILLEGAL_E4 => .illegal 0xE4#8
  | .PUSH_HL => .push .HL
  | .AND_n8 n => .aluImm .AND n
  | .RST_20h => .rst .f4
  | .ADD_SP_e8 e => .addSp e
  | .JP_HL => .jpHl
  | .LD_atn16_A nn => .ldAbsStore nn
  | .ILLEGAL_EB => .illegal 0xEB#8
  | .ILLEGAL_EC => .illegal 0xEC#8
  | .ILLEGAL_ED => .illegal 0xED#8
  | .XOR_n8 n => .aluImm .XOR n
  | .RST_28h => .rst .f5
  | .LDH_A_atn8 n => .ldhLoad n
  | .POP_AF => .pop .AF
  | .LD_A_atC => .ldCLoad
  | .DI => .di
  | .ILLEGAL_F4 => .illegal 0xF4#8
  | .PUSH_AF => .push .AF
  | .OR_n8 n => .aluImm .OR n
  | .RST_30h => .rst .f6
  | .LD_HL_SPe8 e => .ldHlSp e
  | .LD_SP_HL => .ldSpHl
  | .LD_A_atn16 nn => .ldAbsLoad nn
  | .EI => .ei
  | .ILLEGAL_FC => .illegal 0xFC#8
  | .ILLEGAL_FD => .illegal 0xFD#8
  | .CP_n8 n => .aluImm .CP n
  | .RST_38h => .rst .f7
  | .RLC_B => .rotReg .RLC .B
  | .RLC_C => .rotReg .RLC .C
  | .RLC_D => .rotReg .RLC .D
  | .RLC_E => .rotReg .RLC .E
  | .RLC_H => .rotReg .RLC .H
  | .RLC_L => .rotReg .RLC .L
  | .RLC_atHL => .rotHl .RLC
  | .RLC_A => .rotReg .RLC .A
  | .RRC_B => .rotReg .RRC .B
  | .RRC_C => .rotReg .RRC .C
  | .RRC_D => .rotReg .RRC .D
  | .RRC_E => .rotReg .RRC .E
  | .RRC_H => .rotReg .RRC .H
  | .RRC_L => .rotReg .RRC .L
  | .RRC_atHL => .rotHl .RRC
  | .RRC_A => .rotReg .RRC .A
  | .RL_B => .rotReg .RL .B
  | .RL_C => .rotReg .RL .C
  | .RL_D => .rotReg .RL .D
  | .RL_E => .rotReg .RL .E
  | .RL_H => .rotReg .RL .H
  | .RL_L => .rotReg .RL .L
  | .RL_atHL => .rotHl .RL
  | .RL_A => .rotReg .RL .A
  | .RR_B => .rotReg .RR .B
  | .RR_C => .rotReg .RR .C
  | .RR_D => .rotReg .RR .D
  | .RR_E => .rotReg .RR .E
  | .RR_H => .rotReg .RR .H
  | .RR_L => .rotReg .RR .L
  | .RR_atHL => .rotHl .RR
  | .RR_A => .rotReg .RR .A
  | .SLA_B => .rotReg .SLA .B
  | .SLA_C => .rotReg .SLA .C
  | .SLA_D => .rotReg .SLA .D
  | .SLA_E => .rotReg .SLA .E
  | .SLA_H => .rotReg .SLA .H
  | .SLA_L => .rotReg .SLA .L
  | .SLA_atHL => .rotHl .SLA
  | .SLA_A => .rotReg .SLA .A
  | .SRA_B => .rotReg .SRA .B
  | .SRA_C => .rotReg .SRA .C
  | .SRA_D => .rotReg .SRA .D
  | .SRA_E => .rotReg .SRA .E
  | .SRA_H => .rotReg .SRA .H
  | .SRA_L => .rotReg .SRA .L
  | .SRA_atHL => .rotHl .SRA
  | .SRA_A => .rotReg .SRA .A
  | .SWAP_B => .rotReg .SWAP .B
  | .SWAP_C => .rotReg .SWAP .C
  | .SWAP_D => .rotReg .SWAP .D
  | .SWAP_E => .rotReg .SWAP .E
  | .SWAP_H => .rotReg .SWAP .H
  | .SWAP_L => .rotReg .SWAP .L
  | .SWAP_atHL => .rotHl .SWAP
  | .SWAP_A => .rotReg .SWAP .A
  | .SRL_B => .rotReg .SRL .B
  | .SRL_C => .rotReg .SRL .C
  | .SRL_D => .rotReg .SRL .D
  | .SRL_E => .rotReg .SRL .E
  | .SRL_H => .rotReg .SRL .H
  | .SRL_L => .rotReg .SRL .L
  | .SRL_atHL => .rotHl .SRL
  | .SRL_A => .rotReg .SRL .A
  | .BIT_0_B => .bitReg .f0 .B
  | .BIT_0_C => .bitReg .f0 .C
  | .BIT_0_D => .bitReg .f0 .D
  | .BIT_0_E => .bitReg .f0 .E
  | .BIT_0_H => .bitReg .f0 .H
  | .BIT_0_L => .bitReg .f0 .L
  | .BIT_0_atHL => .bitHl .f0
  | .BIT_0_A => .bitReg .f0 .A
  | .BIT_1_B => .bitReg .f1 .B
  | .BIT_1_C => .bitReg .f1 .C
  | .BIT_1_D => .bitReg .f1 .D
  | .BIT_1_E => .bitReg .f1 .E
  | .BIT_1_H => .bitReg .f1 .H
  | .BIT_1_L => .bitReg .f1 .L
  | .BIT_1_atHL => .bitHl .f1
  | .BIT_1_A => .bitReg .f1 .A
  | .BIT_2_B => .bitReg .f2 .B
  | .BIT_2_C => .bitReg .f2 .C
  | .BIT_2_D => .bitReg .f2 .D
  | .BIT_2_E => .bitReg .f2 .E
  | .BIT_2_H => .bitReg .f2 .H
  | .BIT_2_L => .bitReg .f2 .L
  | .BIT_2_atHL => .bitHl .f2
  | .BIT_2_A => .bitReg .f2 .A
  | .BIT_3_B => .bitReg .f3 .B
  | .BIT_3_C => .bitReg .f3 .C
  | .BIT_3_D => .bitReg .f3 .D
  | .BIT_3_E => .bitReg .f3 .E
  | .BIT_3_H => .bitReg .f3 .H
  | .BIT_3_L => .bitReg .f3 .L
  | .BIT_3_atHL => .bitHl .f3
  | .BIT_3_A => .bitReg .f3 .A
  | .BIT_4_B => .bitReg .f4 .B
  | .BIT_4_C => .bitReg .f4 .C
  | .BIT_4_D => .bitReg .f4 .D
  | .BIT_4_E => .bitReg .f4 .E
  | .BIT_4_H => .bitReg .f4 .H
  | .BIT_4_L => .bitReg .f4 .L
  | .BIT_4_atHL => .bitHl .f4
  | .BIT_4_A => .bitReg .f4 .A
  | .BIT_5_B => .bitReg .f5 .B
  | .BIT_5_C => .bitReg .f5 .C
  | .BIT_5_D => .bitReg .f5 .D
  | .BIT_5_E => .bitReg .f5 .E
  | .BIT_5_H => .bitReg .f5 .H
  | .BIT_5_L => .bitReg .f5 .L
  | .BIT_5_atHL => .bitHl .f5
  | .BIT_5_A => .bitReg .f5 .A
  | .BIT_6_B => .bitReg .f6 .B
  | .BIT_6_C => .bitReg .f6 .C
  | .BIT_6_D => .bitReg .f6 .D
  | .BIT_6_E => .bitReg .f6 .E
  | .BIT_6_H => .bitReg .f6 .H
  | .BIT_6_L => .bitReg .f6 .L
  | .BIT_6_atHL => .bitHl .f6
  | .BIT_6_A => .bitReg .f6 .A
  | .BIT_7_B => .bitReg .f7 .B
  | .BIT_7_C => .bitReg .f7 .C
  | .BIT_7_D => .bitReg .f7 .D
  | .BIT_7_E => .bitReg .f7 .E
  | .BIT_7_H => .bitReg .f7 .H
  | .BIT_7_L => .bitReg .f7 .L
  | .BIT_7_atHL => .bitHl .f7
  | .BIT_7_A => .bitReg .f7 .A
  | .RES_0_B => .resReg .f0 .B
  | .RES_0_C => .resReg .f0 .C
  | .RES_0_D => .resReg .f0 .D
  | .RES_0_E => .resReg .f0 .E
  | .RES_0_H => .resReg .f0 .H
  | .RES_0_L => .resReg .f0 .L
  | .RES_0_atHL => .resHl .f0
  | .RES_0_A => .resReg .f0 .A
  | .RES_1_B => .resReg .f1 .B
  | .RES_1_C => .resReg .f1 .C
  | .RES_1_D => .resReg .f1 .D
  | .RES_1_E => .resReg .f1 .E
  | .RES_1_H => .resReg .f1 .H
  | .RES_1_L => .resReg .f1 .L
  | .RES_1_atHL => .resHl .f1
  | .RES_1_A => .resReg .f1 .A
  | .RES_2_B => .resReg .f2 .B
  | .RES_2_C => .resReg .f2 .C
  | .RES_2_D => .resReg .f2 .D
  | .RES_2_E => .resReg .f2 .E
  | .RES_2_H => .resReg .f2 .H
  | .RES_2_L => .resReg .f2 .L
  | .RES_2_atHL => .resHl .f2
  | .RES_2_A => .resReg .f2 .A
  | .RES_3_B => .resReg .f3 .B
  | .RES_3_C => .resReg .f3 .C
  | .RES_3_D => .resReg .f3 .D
  | .RES_3_E => .resReg .f3 .E
  | .RES_3_H => .resReg .f3 .H
  | .RES_3_L => .resReg .f3 .L
  | .RES_3_atHL => .resHl .f3
  | .RES_3_A => .resReg .f3 .A
  | .RES_4_B => .resReg .f4 .B
  | .RES_4_C => .resReg .f4 .C
  | .RES_4_D => .resReg .f4 .D
  | .RES_4_E => .resReg .f4 .E
  | .RES_4_H => .resReg .f4 .H
  | .RES_4_L => .resReg .f4 .L
  | .RES_4_atHL => .resHl .f4
  | .RES_4_A => .resReg .f4 .A
  | .RES_5_B => .resReg .f5 .B
  | .RES_5_C => .resReg .f5 .C
  | .RES_5_D => .resReg .f5 .D
  | .RES_5_E => .resReg .f5 .E
  | .RES_5_H => .resReg .f5 .H
  | .RES_5_L => .resReg .f5 .L
  | .RES_5_atHL => .resHl .f5
  | .RES_5_A => .resReg .f5 .A
  | .RES_6_B => .resReg .f6 .B
  | .RES_6_C => .resReg .f6 .C
  | .RES_6_D => .resReg .f6 .D
  | .RES_6_E => .resReg .f6 .E
  | .RES_6_H => .resReg .f6 .H
  | .RES_6_L => .resReg .f6 .L
  | .RES_6_atHL => .resHl .f6
  | .RES_6_A => .resReg .f6 .A
  | .RES_7_B => .resReg .f7 .B
  | .RES_7_C => .resReg .f7 .C
  | .RES_7_D => .resReg .f7 .D
  | .RES_7_E => .resReg .f7 .E
  | .RES_7_H => .resReg .f7 .H
  | .RES_7_L => .resReg .f7 .L
  | .RES_7_atHL => .resHl .f7
  | .RES_7_A => .resReg .f7 .A
  | .SET_0_B => .setReg .f0 .B
  | .SET_0_C => .setReg .f0 .C
  | .SET_0_D => .setReg .f0 .D
  | .SET_0_E => .setReg .f0 .E
  | .SET_0_H => .setReg .f0 .H
  | .SET_0_L => .setReg .f0 .L
  | .SET_0_atHL => .setHl .f0
  | .SET_0_A => .setReg .f0 .A
  | .SET_1_B => .setReg .f1 .B
  | .SET_1_C => .setReg .f1 .C
  | .SET_1_D => .setReg .f1 .D
  | .SET_1_E => .setReg .f1 .E
  | .SET_1_H => .setReg .f1 .H
  | .SET_1_L => .setReg .f1 .L
  | .SET_1_atHL => .setHl .f1
  | .SET_1_A => .setReg .f1 .A
  | .SET_2_B => .setReg .f2 .B
  | .SET_2_C => .setReg .f2 .C
  | .SET_2_D => .setReg .f2 .D
  | .SET_2_E => .setReg .f2 .E
  | .SET_2_H => .setReg .f2 .H
  | .SET_2_L => .setReg .f2 .L
  | .SET_2_atHL => .setHl .f2
  | .SET_2_A => .setReg .f2 .A
  | .SET_3_B => .setReg .f3 .B
  | .SET_3_C => .setReg .f3 .C
  | .SET_3_D => .setReg .f3 .D
  | .SET_3_E => .setReg .f3 .E
  | .SET_3_H => .setReg .f3 .H
  | .SET_3_L => .setReg .f3 .L
  | .SET_3_atHL => .setHl .f3
  | .SET_3_A => .setReg .f3 .A
  | .SET_4_B => .setReg .f4 .B
  | .SET_4_C => .setReg .f4 .C
  | .SET_4_D => .setReg .f4 .D
  | .SET_4_E => .setReg .f4 .E
  | .SET_4_H => .setReg .f4 .H
  | .SET_4_L => .setReg .f4 .L
  | .SET_4_atHL => .setHl .f4
  | .SET_4_A => .setReg .f4 .A
  | .SET_5_B => .setReg .f5 .B
  | .SET_5_C => .setReg .f5 .C
  | .SET_5_D => .setReg .f5 .D
  | .SET_5_E => .setReg .f5 .E
  | .SET_5_H => .setReg .f5 .H
  | .SET_5_L => .setReg .f5 .L
  | .SET_5_atHL => .setHl .f5
  | .SET_5_A => .setReg .f5 .A
  | .SET_6_B => .setReg .f6 .B
  | .SET_6_C => .setReg .f6 .C
  | .SET_6_D => .setReg .f6 .D
  | .SET_6_E => .setReg .f6 .E
  | .SET_6_H => .setReg .f6 .H
  | .SET_6_L => .setReg .f6 .L
  | .SET_6_atHL => .setHl .f6
  | .SET_6_A => .setReg .f6 .A
  | .SET_7_B => .setReg .f7 .B
  | .SET_7_C => .setReg .f7 .C
  | .SET_7_D => .setReg .f7 .D
  | .SET_7_E => .setReg .f7 .E
  | .SET_7_H => .setReg .f7 .H
  | .SET_7_L => .setReg .f7 .L
  | .SET_7_atHL => .setHl .f7
  | .SET_7_A => .setReg .f7 .A

end Sys2Proof
end

