-- ==== Sys2Proof/Machine/HostCalls.lean ====
section
/-! DEFINITION. The host's calls (60_exceptions.md R421, R425 to R429) and the cartridge loader (20_memory.md R93).
The host acts between ticks only. -/

namespace Sys2Proof.Machine

/-- R421: `n` ticks, stopping early with the fault of a tick that raises one; the state is the terminal one of
R381. No step refuses, so the last case never arises. -/
def runTicks : Nat → State → State × Option Fault
  | 0, s => (s, none)
  | n + 1, s =>
    match step s with
    | .next t => runTicks n t
    | .fault f => (if s.fault = none then faultedState f s else s, some f)
    | .refused _ => (s, none)

/-- R421: `RunUntil(target)`. A target below the cycle count is refused with a fault of the call; the machine is
unchanged. -/
def runUntil (target : Nat) (s : State) : State × Option Fault :=
  match s.fault with
  | some f => (s, some f)
  | none =>
    if target < s.cycles then (s, some (.hostContractViolation .runUntilRegression))
    else runTicks (target - s.cycles) s

/-- R426: `Cycles()`. -/
def hostCycles (s : State) : Nat := s.cycles

/-- R427: `CurrentImage()`. -/
def hostCurrentImage (s : State) : List (List (BitVec 2)) := s.ppu.currentImage

/-- R428: the CORE's side of a key event: `RequestInterrupt(4)`, between runs. -/
def hostKeyEvent (s : State) : State := requestInterrupt .JOYPAD s

/-- R429: the CORE's side of a platform serial device: `RequestInterrupt(3)`. -/
def hostSerialEvent (s : State) : State := requestInterrupt .SERIAL s

/-- R93: construction from a cartridge image. Type 0 is a ROM of exactly 32,768 bytes (R84, R90); types 1 to 3 are
the banked controllers, out of scope (00_scope.md R5); any other type is fatal, with no partial load, and so is a
type-0 image of another size (log 9). -/
def powerOn (image : List Byte) : Host.Outcome State Fault Refusal :=
  let type := image.getD Config.cartridgeTypeOffset busDefault
  if type = 0#8 then
    if image.length = 32768 then .next (State.construct Platform.default (Memory.load [] 0 image))
    else .fault (.unsupportedCartridge type)
  else if type.toNat ≤ 3 then .refused (.bankedCartridge type)
  else .fault (.unsupportedCartridge type)

end Sys2Proof.Machine
end

