-- ==== Sys2Proof/Machine/PixelView.lean ====
section
/-! DEFINITION. The per-pixel statement of the line renderer (65_ppu.md R501), written from that rule's pseudocode
and not from Render.lean: each checks the other. -/

namespace Sys2Proof.Machine

/-- R470: the colour index of pixel `k` (0 leftmost) of a tile row. -/
def tilePixelOf (row : Byte × Byte) (k : Nat) : BitVec 2 :=
  BitVec.ofBool (row.2.getLsbD (7 - k)) ++ BitVec.ofBool (row.1.getLsbD (7 - k))

/-- R501: `TilePixel(area, Y, X)`. -/
def Ppu.tilePixel (p : Ppu) (area : Bool) (Y X : Nat) : BitVec 2 :=
  tilePixelOf (p.tileRow (p.tileBase (p.mapEntry area (Y / 8) (X / 8))) (Y % 8)) (X % 8)

/-- R501: `(bc, bo)`, the colour and the opacity of background and window. -/
def Ppu.scenePixel (p : Ppu) (ly x : Nat) : BitVec 2 × Bool :=
  if p.windowDrawn ly ∧ p.windowX ≤ x then
    let i := p.tilePixel (p.lcdc.getLsbD 6) p.winY (x - p.windowX)
    (palette p.bgp i, i != 0#2)
  else if p.lcdc.getLsbD 0 then
    let i := p.tilePixel (p.lcdc.getLsbD 3) ((ly + p.scy.toNat) % 256) ((x + p.scx.toNat) % 256)
    (palette p.bgp i, i != 0#2)
  else (0#2, false)

/-- R501: `SpritePixel(k, x)` on line `ly`. -/
def Ppu.spritePixel (p : Ppu) (maskBit0 : Bool) (ly x k : Nat) : Option (BitVec 2) :=
  if x + 8 < (p.spriteX k).toNat then none
  else
    let j := x + 8 - (p.spriteX k).toNat
    if 7 < j then none
    else
      let row := p.tileRow (0x8000 + 16 * (p.spriteIndex maskBit0 k).toNat) (p.spriteRow k ly)
      let i := tilePixelOf row (if (p.spriteFlags k).getLsbD 5 then 7 - j else j)
      if i = 0#2 then none else some (palette (p.spritePalette k) i)

/-- R501: `front(x)` (`behind` false) and `behind(x)` (true). -/
def Ppu.groupPixel (p : Ppu) (maskBit0 : Bool) (ly x : Nat) (behind : Bool) : Option (BitVec 2) :=
  ((p.spritesOnLine ly).filter fun k => p.spriteBehind k == behind).findSome? (p.spritePixel maskBit0 ly x)

/-- R501: `pixel(x)`. -/
def Ppu.pixel (p : Ppu) (maskBit0 : Bool) (ly x : Nat) : BitVec 2 :=
  let (bc, bo) := p.scenePixel ly x
  let front := if p.lcdc.getLsbD 1 then p.groupPixel maskBit0 ly x false else none
  let behind := if p.lcdc.getLsbD 1 then p.groupPixel maskBit0 ly x true else none
  match front with
  | some c => c
  | none => if bo then bc else behind.getD bc

end Sys2Proof.Machine
end

