-- ==== Sys2Proof/Safety.lean ====
section
/-! DEFINITION. What a sound state is (the invariant that every step keeps) and what an instruction may touch (the
vocabulary of the frame statements). -/

namespace Sys2Proof.Machine

/-! ## The invariant -/

/-- Every storage is in canonical form (log 2). -/
def State.memoriesCanonical (s : State) : Prop :=
  s.mem.wf = true ∧ s.hram.wf = true ∧ s.ppu.vram.wf = true ∧ s.ppu.oam.wf = true

/-- R34, R48, R49: the CORE's memories list only their own keys. -/
def State.memoriesInRange (s : State) : Prop :=
  s.hram.within 0xFF80 0xFFFF = true ∧ s.ppu.vram.within 0x8000 0xA000 = true ∧ s.ppu.oam.within 0 160 = true

/-- R24: "F[3:0] is always 0". -/
def State.flagsLowNibbleZero (s : State) : Prop := s.regs.f &&& 0x0F#8 = 0#8

/-- R393, R397: the next boundary is not past, and at most 5 ticks ahead. -/
def State.boundaryAhead (s : State) : Prop :=
  s.halted = false → s.cycles ≤ s.next ∧ s.next ≤ s.cycles + 5

/-- R50(d): the copy cursor. -/
def State.dmaInRange (s : State) : Prop := s.ppu.dmaActive = true → s.ppu.dmaIndex < 160

/-- R50(e), R50(f): 144 slots; 144 rows of 160 pixels. -/
def State.frameShape (s : State) : Prop :=
  s.ppu.nextFrame.length = 144 ∧ s.ppu.currentImage.length = 144 ∧
  ∀ row ∈ s.ppu.currentImage, row.length = 160

/-- R43, R453: while the LCD is off, LY and the mode are 0. -/
def State.lcdOffQuiet (s : State) : Prop :=
  s.ppu.lcdActive = false → s.ppu.ly = 0#8 ∧ s.ppu.stat &&& 3#8 = 0#8

/-- R452, R453: the state machine runs only with LCDC[7] set, and started in an earlier tick. -/
def State.lcdStarted (s : State) : Prop :=
  s.ppu.lcdActive = true → s.ppu.lcdc.getLsbD 7 = true ∧ s.ppu.lcdOnCycle < s.cycles

/-- R458: STAT[2] set says that LY equals LYC; while the LCD is on, it says whether they are equal. -/
def State.coincidenceSound (s : State) : Prop :=
  (s.ppu.stat.getLsbD 2 = true → s.ppu.ly = s.ppu.lyc) ∧
  (s.ppu.lcdActive = true → s.ppu.ly = s.ppu.lyc → s.ppu.stat.getLsbD 2 = true)

/-- The invariant that every step keeps, whatever the platform. -/
def State.Inv (s : State) : Prop :=
  s.memoriesCanonical ∧ s.memoriesInRange ∧ s.flagsLowNibbleZero ∧ s.boundaryAhead ∧ s.dmaInRange ∧
  s.frameShape ∧ s.lcdOffQuiet ∧ s.lcdStarted ∧ s.coincidenceSound

/-! ## The display's schedule (R450, R454) -/

/-- The position in the frame of the last tick completed. -/
def State.lastPosition (s : State) : Nat := (s.cycles - 1 - s.ppu.lcdOnCycle) % frameCycles

/-- R454: STAT[1:0] at a position of the frame. -/
def modeAt (p : Nat) : Byte :=
  if lcdHeight ≤ p / 114 then 1#8
  else if p % 114 < 20 then 2#8
  else if p % 114 < 63 then 3#8
  else 0#8

/-- The lines rendered once the tick at a position of the frame is complete. -/
def linesRendered (p : Nat) : Nat :=
  if lcdHeight ≤ p / 114 then lcdHeight else if p % 114 < 20 then p / 114 else p / 114 + 1

/-- R454, R455: while the LCD runs, LY is the line and STAT[1:0] the mode of the position. -/
def State.onSchedule (s : State) : Prop :=
  s.ppu.lcdActive = true →
    s.ppu.ly = BitVec.ofNat 8 (s.lastPosition / 114) ∧ s.ppu.stat &&& 3#8 = modeAt s.lastPosition

/-- R500: the slots of the lines rendered so far are filled. -/
def State.slotsFilled (s : State) : Prop :=
  s.ppu.lcdActive = true → ∀ r < linesRendered s.lastPosition, (s.ppu.nextFrame.getD r none).isSome = true

/-- The invariant with the display's schedule. -/
def State.ScheduleInv (s : State) : Prop := s.Inv ∧ s.onSchedule ∧ s.slotsFilled

end Sys2Proof.Machine

namespace Sys2Proof

open Sys2Proof.Machine

/-! ## What an instruction may touch -/

/-- The byte addresses that a well-formed instruction of a form stores to, in the order of its rule; the
addresses are those its meaning computes. -/
def Form.stores (f : Form) (s : State) : List Word :=
  match f with
  | .ldHlReg _ => [s.hl]
  | .ldHlImm _ => [s.hl]
  | .ldIndA i => [s.indAddr i]
  | .ldhStore n => [ioAddr n]
  | .ldCStore => [ioAddr (s.r8 .C)]
  | .ldAbsStore nn => [nn]
  | .ldAbsSp nn => [nn, nn + 1#16]
  | .push _ => [s.sp - 2#16, s.sp - 2#16 + 1#16]
  | .incHl => [s.hl]
  | .decHl => [s.hl]
  | .rotHl _ => [s.hl]
  | .resHl _ => [s.hl]
  | .setHl _ => [s.hl]
  | .call _ => [s.sp - 2#16, s.sp - 2#16 + 1#16]
  | .callCond c _ => if s.cond c then [s.sp - 2#16, s.sp - 2#16 + 1#16] else []
  | .rst _ => [s.sp - 2#16, s.sp - 2#16 + 1#16]
  | _ => []

/-- The registers other than F that a form may write: its destination, and HL where its operand updates it. -/
def Form.writes : Form → List Reg
  | .ldRegReg d _ => [regOf d]
  | .ldRegImm d _ => [regOf d]
  | .ldRegHl d => [regOf d]
  | .ldAInd .BC => [.A]
  | .ldAInd .DE => [.A]
  | .ldAInd .HLinc => [.A, .H, .L]
  | .ldAInd .HLdec => [.A, .H, .L]
  | .ldIndA .HLinc => [.H, .L]
  | .ldIndA .HLdec => [.H, .L]
  | .ldhLoad _ => [.A]
  | .ldCLoad => [.A]
  | .ldAbsLoad _ => [.A]
  | .ldPairImm .BC _ => [.B, .C]
  | .ldPairImm .DE _ => [.D, .E]
  | .ldPairImm .HL _ => [.H, .L]
  | .pop .BC => [.B, .C]
  | .pop .DE => [.D, .E]
  | .pop .HL => [.H, .L]
  | .pop .AF => [.A]
  | .aluReg op _ => if op = .CP then [] else [.A]
  | .aluImm op _ => if op = .CP then [] else [.A]
  | .aluHl op => if op = .CP then [] else [.A]
  | .incReg r => [regOf r]
  | .decReg r => [regOf r]
  | .incPair .BC => [.B, .C]
  | .incPair .DE => [.D, .E]
  | .incPair .HL => [.H, .L]
  | .decPair .BC => [.B, .C]
  | .decPair .DE => [.D, .E]
  | .decPair .HL => [.H, .L]
  | .addHl _ => [.H, .L]
  | .ldHlSp _ => [.H, .L]
  | .cpl => [.A]
  | .daa => [.A]
  | .rotA _ => [.A]
  | .rotReg _ r => [regOf r]
  | .resReg _ r => [regOf r]
  | .setReg _ r => [regOf r]
  | _ => []

/-- The flags that a form may write, as a mask of F (R24): the routing strings of the rules. -/
def Form.flagMask : Form → Byte
  | .pop .AF => 0xF0#8
  | .aluReg _ _ => 0xF0#8
  | .aluImm _ _ => 0xF0#8
  | .aluHl _ => 0xF0#8
  | .incReg _ => 0xE0#8
  | .decReg _ => 0xE0#8
  | .incHl => 0xE0#8
  | .decHl => 0xE0#8
  | .addHl _ => 0x70#8
  | .addSp _ => 0xF0#8
  | .ldHlSp _ => 0xF0#8
  | .cpl => 0x60#8
  | .daa => 0xB0#8
  | .scf => 0x70#8
  | .ccf => 0x70#8
  | .rotA _ => 0xF0#8
  | .rotReg _ _ => 0xF0#8
  | .rotHl _ => 0xF0#8
  | .bitReg _ _ => 0xE0#8
  | .bitHl _ => 0xE0#8
  | _ => 0#8

/-- The forms that write `sp` (R26). -/
def Form.writesSp : Form → Bool
  | .ldPairImm .SP _ => true
  | .ldSpHl => true
  | .push _ => true
  | .pop _ => true
  | .incPair .SP => true
  | .decPair .SP => true
  | .addSp _ => true
  | .call _ => true
  | .callCond _ _ => true
  | .ret => true
  | .retCond _ => true
  | .reti => true
  | .rst _ => true
  | _ => false

/-- The forms that write IME (R27). -/
def Form.writesIme : Form → Bool
  | .di => true
  | .ei => true
  | .reti => true
  | _ => false

/-- R131: whether an instruction is a conditional transfer whose condition holds. -/
def Form.taken (f : Form) (s : State) : Bool :=
  match f with
  | .jpCond c _ => s.cond c
  | .jrCond c _ => s.cond c
  | .callCond c _ => s.cond c
  | .retCond c => s.cond c
  | _ => false

/-- R128: whether an instruction transfers control: it ends with `pc` at its target. -/
def Form.transfers (f : Form) (s : State) : Bool :=
  match f with
  | .jp _ => true
  | .jpHl => true
  | .jr _ => true
  | .call _ => true
  | .ret => true
  | .reti => true
  | .rst _ => true
  | f => f.taken s

/-- R128: the target of an instruction that transfers control. -/
def Form.target (f : Form) (s : State) : Option Word :=
  match f with
  | .jp nn => some nn
  | .jpHl => some s.hl
  | .jr e => some (s.pc + 2#16 + e.signExtend 16)
  | .call nn => some nn
  | .ret => some (make16 (s.busRead (s.sp + 1#16)) (s.busRead s.sp))
  | .reti => some (make16 (s.busRead (s.sp + 1#16)) (s.busRead s.sp))
  | .rst t => some (BitVec.ofNat 16 (8 * t.val))
  | .jpCond c nn => if s.cond c then some nn else none
  | .jrCond c e => if s.cond c then some (s.pc + 2#16 + e.signExtend 16) else none
  | .callCond c nn => if s.cond c then some nn else none
  | .retCond c => if s.cond c then some (make16 (s.busRead (s.sp + 1#16)) (s.busRead s.sp)) else none
  | _ => none

/-- R128: whether an instruction pushes a return address. -/
def Form.calls (f : Form) (s : State) : Bool :=
  match f with
  | .call _ => true
  | .callCond c _ => s.cond c
  | .rst _ => true
  | _ => false

end Sys2Proof

namespace Sys2Proof.Machine

/-! ## What a store may touch -/

/-- The storage key that a component answers a read of an address from, for plain storage (R83 to R86). -/
def Component.storageKey (comp : Component) (a : Word) : Option Nat :=
  match comp with
  | .ram r => if r.owns a then some (r.key a) else none
  | .rom r => if r.owns a then some (r.key a) else none
  | .bootRom base => if inBootWindow a then some (base + a.toNat) else none
  | .cpu => none
  | .timer => none
  | .ppu => none

/-- R85: a write through one component at `a` can be seen through another at `b`: a RAM owns `a` and some plain
storage answers `b` from the same key. -/
def Platform.shares (p : Platform) (a b : Word) : Bool :=
  p.components.any fun c1 =>
    match c1 with
    | .ram r => r.owns a && p.components.any fun c2 => c2.storageKey b == some (r.key a)
    | _ => false

/-- R99: the other addresses that a write to a register address can change as seen by a read. -/
def sideEffects (a b : Word) : Bool :=
  (decide (a = addrDIV) && (decide (b = addrTIMA) || decide (b = addrIF))) ||
  (decide (a = addrTAC) && (decide (b = addrTIMA) || decide (b = addrIF))) ||
  (decide (a = 0xFF40#16) && (decide (b = 0xFF41#16) || decide (b = 0xFF44#16) || decide (b = addrIF))) ||
  (decide (a = 0xFF45#16) && (decide (b = 0xFF41#16) || decide (b = addrIF))) ||
  (decide (a = addrBoot) && inBootWindow b)

/-- Whether a store to `a` may change what a read of `b` gives: `b` is `a`, or shares its storage (R85), or R99
gives the write that side effect. -/
def Platform.touches (p : Platform) (a b : Word) : Bool := decide (a = b) || p.shares a b || sideEffects a b

/-- What a store leaves unchanged of the machine: everything but IE, IF, high RAM, the timer, the picture unit,
the platform's storage and the boot bit, which are what a bus write can reach. -/
def State.sameCpu (s t : State) : Prop :=
  t.regs = s.regs ∧ t.pc = s.pc ∧ t.sp = s.sp ∧ t.ime = s.ime ∧ t.halted = s.halted ∧ t.next = s.next ∧
  t.fault = s.fault ∧ t.cycles = s.cycles ∧ t.platform = s.platform

/-- What no register-only instruction changes: everything that a bus write can reach. -/
def State.sameBus (s t : State) : Prop :=
  t.ie = s.ie ∧ t.iflag = s.iflag ∧ t.hram = s.hram ∧ t.timer = s.timer ∧ t.ppu = s.ppu ∧ t.mem = s.mem ∧
  t.bootActive = s.bootActive

/-! ## The vocabulary of the result statements -/

/-- The instructions of an operation on A and an operand (R250 to R264, R290 to R298): the operand's value, the
length and the cost. -/
def State.aluOperand (s : State) (op : AluOp) (i : Instr) (v : Byte) (length cost : Nat) : Prop :=
  (∃ r, i = .aluReg op r ∧ v = s.r8 r ∧ length = 1 ∧ cost = 1) ∨
  (∃ n, i = .aluImm op n ∧ v = n ∧ length = 2 ∧ cost = 2) ∨
  (i = .aluHl op ∧ v = s.busRead s.hl ∧ length = 1 ∧ cost = 2)

/-- R185 to R190, bit by bit: bit `i` of the result of a rotate, shift or swap of `v`, `c` the carry flag. -/
def rotBit (k : RotOp) (v : Byte) (c : Bool) (i : Nat) : Bool :=
  match k with
  | .RLC => if i = 0 then v.getLsbD 7 else v.getLsbD (i - 1)
  | .RRC => if i = 7 then v.getLsbD 0 else v.getLsbD (i + 1)
  | .RL => if i = 0 then c else v.getLsbD (i - 1)
  | .RR => if i = 7 then c else v.getLsbD (i + 1)
  | .SLA => if i = 0 then false else v.getLsbD (i - 1)
  | .SRA => if i = 7 then v.getLsbD 7 else v.getLsbD (i + 1)
  | .SWAP => v.getLsbD ((i + 4) % 8)
  | .SRL => if i = 7 then false else v.getLsbD (i + 1)

/-- R185 to R190: the carry of a rotate, shift or swap of `v`. -/
def rotCarry (k : RotOp) (v : Byte) : Bool :=
  match k with
  | .RLC => v.getLsbD 7
  | .RRC => v.getLsbD 0
  | .RL => v.getLsbD 7
  | .RR => v.getLsbD 0
  | .SLA => v.getLsbD 7
  | .SRA => v.getLsbD 0
  | .SWAP => false
  | .SRL => v.getLsbD 0

/-- The byte whose two nibbles are the decimal digits of a number below 100. -/
def bcdByte (n : Nat) : Byte := BitVec.ofNat 8 (n / 10 * 16 + n % 10)

/-- The cell of plain storage behind a bus address of the default platform (R34, R48, R49, R83, R85): the echo's
addresses share the cells of the work RAM. -/
def storageCell (a : Word) : Option Nat :=
  if 0x8000 ≤ a.toNat ∧ a.toNat ≤ 0x9FFF then some a.toNat
  else if 0xC000 ≤ a.toNat ∧ a.toNat ≤ 0xDFFF then some a.toNat
  else if 0xE000 ≤ a.toNat ∧ a.toNat ≤ 0xFDFF then some (a.toNat - 0x2000)
  else if 0xFE00 ≤ a.toNat ∧ a.toNat ≤ 0xFE9F then some a.toNat
  else if 0xFF80 ≤ a.toNat ∧ a.toNat ≤ 0xFFFE then some a.toNat
  else none

/-- R90: the addresses that no component of the default platform owns. -/
def unownedByDefault (a : Word) : Bool :=
  (decide (0xA000 ≤ a.toNat) && decide (a.toNat ≤ 0xBFFF)) ||
  (decide (0xFEA0 ≤ a.toNat) && decide (a.toNat ≤ 0xFF03)) ||
  (decide (0xFF08 ≤ a.toNat) && decide (a.toNat ≤ 0xFF0E)) ||
  (decide (0xFF10 ≤ a.toNat) && decide (a.toNat ≤ 0xFF3F)) ||
  (decide (0xFF4C ≤ a.toNat) && decide (a.toNat ≤ 0xFF7F))

/-- The first bytes that fault (R367, R368). -/
def faultingBytes : List Byte :=
  [0x10#8, 0xD3#8, 0xDB#8, 0xDD#8, 0xE3#8, 0xE4#8, 0xEB#8, 0xEC#8, 0xED#8, 0xF4#8, 0xFC#8, 0xFD#8]

/-- The fault of a first byte of `faultingBytes` at an address (R380). -/
def faultOf (pc : Word) (b : Byte) : Fault :=
  if b = 0x10#8 then .stopInstruction pc else .illegalOpcode pc b

end Sys2Proof.Machine
end

