-- ==== Sys2Proof/Certificates/Slice0/Obligations.lean ====
section
/-! DEFINITION. The statements for the provers. Each docstring says which rule of spec/ it formalises; OBLIGATIONS.json
says which of them the spec states in the source's own words and which rest on its decisions. -/

section

open Sys2Proof Sys2Proof.Machine

/-! ## Encoding (30_encoding.md) -/

/-- Every well-formed instruction, with every operand value, is read back from its bytes (R120, R122). -/
def Obligations.DecodeInvertsEncode : Prop :=
  ∀ (i : Instr) (rest : List Byte), i.WellFormed → decode (encode i ++ rest) = .ok (i, rest)

/-- Whatever decodes is the encoding of what it decodes to: no two encodings of one instruction, no bit dropped. -/
def Obligations.EncodeInvertsDecode : Prop :=
  ∀ (bytes rest : List Byte) (i : Instr),
    decode bytes = .ok (i, rest) → i.WellFormed ∧ encode i ++ rest = bytes

/-- R121: any three bytes start with an instruction, as long as the table says. -/
def Obligations.ThreeBytesAlwaysDecode : Prop :=
  ∀ (b0 b1 b2 : Byte) (rest : List Byte), ∃ i tail,
    decode (b0 :: b1 :: b2 :: rest) = .ok (i, tail) ∧ tail.length + i.entry.length = rest.length + 3

/-- R132, R133: words of several patterns, written from the patterns' bits. -/
def Obligations.SpecWordsDecode : Prop :=
  decode [0b01010011#8] = .ok (.LD_D_E, []) ∧
  decode [0b00110110#8, 0x7F#8] = .ok (.LD_atHL_n8 0x7F#8, []) ∧
  decode [0b00100001#8, 0x34#8, 0x12#8] = .ok (.LD_HL_n16 0x1234#16, []) ∧
  decode [0b11110101#8] = .ok (.PUSH_AF, []) ∧
  decode [0b10001110#8] = .ok (.ADC_A_atHL, []) ∧
  decode [0b00111101#8] = .ok (.DEC_A, []) ∧
  decode [0b00011011#8] = .ok (.DEC_DE, []) ∧
  decode [0b00101111#8] = .ok (.CPL, []) ∧
  decode [0b00100000#8, 0xFE#8] = .ok (.JR_NZ_e8 0xFE#8, []) ∧
  decode [0b11011100#8, 0x00#8, 0xC0#8] = .ok (.CALL_C_n16 0xC000#16, []) ∧
  decode [0b11101111#8] = .ok (.RST_28h, []) ∧
  decode [0b11110011#8] = .ok (.DI, []) ∧
  decode [0xCB#8, 0b00010110#8] = .ok (.RL_atHL, []) ∧
  decode [0xCB#8, 0b01111111#8] = .ok (.BIT_7_A, []) ∧
  decode [0xCB#8, 0b10011110#8] = .ok (.RES_3_atHL, []) ∧
  decode [0xCB#8, 0b11000000#8] = .ok (.SET_0_B, [])

/-- The model's choice (DESIGN CHOICE, log 5): R124 says that the prefix byte is not an instruction, and the opcode
table has a row for it all the same; the model gives that row the meaning of the instruction that the next byte selects
from the prefixed table, which always completes. -/
def Obligations.PrefixRunsTheSelectedInstruction : Prop :=
  ∀ s : State, exec .PREFIX_CB s = exec (decodePrefixed (s.busRead (s.pc + 1#16))) s ∧
    ∃ t, exec .PREFIX_CB s = .next t

/-! ## Every instruction: running, time, program counter, frames -/

/-- R120, R393, R420: at an instruction boundary with no interrupt to dispatch, a step is the devices' steps, then
the instruction whose bytes stand at `pc`, then the tick's count. -/
def Obligations.StepRunsTheDecodedInstruction : Prop :=
  ∀ (s : State) (i : Instr) (rest : List Byte),
    s.fault = none → s.halted = false → s.next = s.cycles →
    (s.ime = true → (devicesStep s).pend = 0#8) →
    decode [(devicesStep s).busRead s.pc, (devicesStep s).busRead (s.pc + 1#16),
      (devicesStep s).busRead (s.pc + 2#16)] = .ok (i, rest) →
    step s = match exec i (devicesStep s) with
      | .next t => .next { t with cycles := s.cycles + 1 }
      | .fault f => .fault f
      | .refused r => .refused r

/-- R131, R393: every instruction but the twelve that fault completes, in every state, and schedules the next
boundary at the cost that the opcode table gives it; `HALT` schedules none. -/
def Obligations.EveryInstructionCompletesAtItsTableCost : Prop :=
  ∀ (i : Instr) (s : State), i.WellFormed → i ≠ .STOP → (∀ b, i.form ≠ .illegal b) →
    ∃ t, exec i s = .next t ∧
      (i = .HALT → t.halted = true ∧ t.next = s.next) ∧
      (i ≠ .HALT → t.halted = s.halted ∧
        t.next = s.cycles + i.entry.cycles + (if i.form.taken s = true then i.entry.extra else 0))

/-- R128: an instruction ends with `pc` at `npc`, or at its target where it transfers control; a call or restart
pushes `npc`; a jump of -2 from its own address returns to it. The lengths are the table's (the spec's decision D3);
conditions (R127), offsets (R129) and restart targets (R130) are its decisions D1, D2 and D5. -/
def Obligations.ProgramCounterAdvance : Prop :=
  (∀ (i : Instr) (s t : State), i.WellFormed → exec i s = .next t →
    (i.form.target s = none → t.pc = s.pc + BitVec.ofNat 16 i.entry.length) ∧
    (∀ a, i.form.target s = some a → t.pc = a) ∧
    (i.form.calls s = true →
      t = { ({ s with sp := s.sp - 2#16 }.busWrite (s.sp - 2#16)
              (lowByte (s.pc + BitVec.ofNat 16 i.entry.length))).busWrite (s.sp - 1#16)
              (highByte (s.pc + BitVec.ofNat 16 i.entry.length)) with pc := t.pc, next := t.next })) ∧
  ∀ s : State, ∃ t, exec (.JR_e8 0xFE#8) s = .next t ∧ t.pc = s.pc

/-- The frame of every instruction on the registers: a register changes only if the instruction's form names it as
a destination, a flag only if its routing writes it, `sp` and IME only by the forms that write them, and nothing of
the fault, the tick count and the platform changes. -/
def Obligations.RegisterFrame : Prop :=
  ∀ (i : Instr) (s t : State), i.WellFormed → s.flagsLowNibbleZero → exec i s = .next t →
    (∀ r : Reg, r ≠ .F → r ∉ i.form.writes → t.regs.get r = s.regs.get r) ∧
    t.regs.f &&& ~~~ i.form.flagMask = s.regs.f &&& ~~~ i.form.flagMask ∧
    (i.form.writesSp = false → t.sp = s.sp) ∧
    (i.form.writesIme = false → t.ime = s.ime) ∧
    (i ≠ .HALT → t.halted = s.halted) ∧
    t.fault = s.fault ∧ t.cycles = s.cycles ∧ t.platform = s.platform

/-- The frame of every instruction on memory and the devices: a form that stores nothing changes nothing that the
bus reaches; one that stores leaves the byte read at every address that its stores do not touch (R85, R99), and a
store below 0x8000 or from 0xA000 to 0xFDFF leaves IE, IF, high RAM, the timer, the picture unit and the boot bit. -/
def Obligations.MemoryFrame : Prop :=
  ∀ (i : Instr) (s t : State), i.WellFormed → s.memoriesCanonical → exec i s = .next t →
    (i.form.stores s = [] → s.sameBus t) ∧
    (∀ b : Word, (∀ a ∈ i.form.stores s, s.platform.touches a b = false) → t.busRead b = s.busRead b) ∧
    ((∀ a ∈ i.form.stores s, a.toNat < 0x8000 ∨ (0xA000 ≤ a.toNat ∧ a.toNat < 0xFE00)) →
      (∀ a ∈ i.form.stores s, a ≠ addrBoot) →
      t.ie = s.ie ∧ t.iflag = s.iflag ∧ t.hram = s.hram ∧ t.timer = s.timer ∧ t.ppu = s.ppu ∧
      t.bootActive = s.bootActive)

/-! ## Loads (41_loads.md) -/

/-- R210, R211, R229 to R231: register loads of a byte and of a word; `sp` is stored low byte first. -/
def Obligations.RegisterLoads : Prop :=
  ∀ (s : State) (d r : R8) (n : Byte) (nn : Word),
    exec (.ldRegReg d r) s = .next
      { s with regs := s.regs.set (regOf d) (s.regs.get (regOf r)), pc := s.pc + 1#16, next := s.cycles + 1 } ∧
    exec (.ldRegImm d n) s = .next
      { s with regs := s.regs.set (regOf d) n, pc := s.pc + 2#16, next := s.cycles + 2 } ∧
    exec (.LD_BC_n16 nn) s = .next { s with
      regs := { s.regs with b := highByte nn, c := lowByte nn }, pc := s.pc + 3#16, next := s.cycles + 3 } ∧
    exec (.LD_DE_n16 nn) s = .next { s with
      regs := { s.regs with d := highByte nn, e := lowByte nn }, pc := s.pc + 3#16, next := s.cycles + 3 } ∧
    exec (.LD_HL_n16 nn) s = .next { s with
      regs := { s.regs with h := highByte nn, l := lowByte nn }, pc := s.pc + 3#16, next := s.cycles + 3 } ∧
    exec (.LD_SP_n16 nn) s = .next { s with sp := nn, pc := s.pc + 3#16, next := s.cycles + 3 } ∧
    exec .LD_SP_HL s = .next
      { s with sp := make16 s.regs.h s.regs.l, pc := s.pc + 1#16, next := s.cycles + 2 } ∧
    exec (.LD_atn16_SP nn) s = .next { (s.busWrite nn (lowByte s.sp)).busWrite (nn + 1#16) (highByte s.sp) with
      pc := s.pc + 3#16, next := s.cycles + 5 }

/-- R212, R215, R216, R219, R220, R223, R225, R227: loads from memory; the address is that of the old HL. -/
def Obligations.LoadFromMemory : Prop :=
  ∀ (s : State) (d : R8) (n : Byte) (nn : Word),
    exec (.ldRegHl d) s = .next { s with
      regs := s.regs.set (regOf d) (s.busRead (make16 s.regs.h s.regs.l)), pc := s.pc + 1#16, next := s.cycles + 2 } ∧
    exec .LD_A_atBC s = .next { s with
      regs := { s.regs with a := s.busRead (make16 s.regs.b s.regs.c) }, pc := s.pc + 1#16, next := s.cycles + 2 } ∧
    exec .LD_A_atDE s = .next { s with
      regs := { s.regs with a := s.busRead (make16 s.regs.d s.regs.e) }, pc := s.pc + 1#16, next := s.cycles + 2 } ∧
    exec .LD_A_atHLinc s = .next { s with
      regs := { s.regs with a := s.busRead s.hl, h := highByte (s.hl + 1#16), l := lowByte (s.hl + 1#16) }
      pc := s.pc + 1#16, next := s.cycles + 2 } ∧
    exec .LD_A_atHLdec s = .next { s with
      regs := { s.regs with a := s.busRead s.hl, h := highByte (s.hl - 1#16), l := lowByte (s.hl - 1#16) }
      pc := s.pc + 1#16, next := s.cycles + 2 } ∧
    exec (.LDH_A_atn8 n) s = .next { s with
      regs := { s.regs with a := s.busRead (0xFF#8 ++ n) }, pc := s.pc + 2#16, next := s.cycles + 3 } ∧
    exec .LD_A_atC s = .next { s with
      regs := { s.regs with a := s.busRead (0xFF#8 ++ s.regs.c) }, pc := s.pc + 1#16, next := s.cycles + 2 } ∧
    exec (.LD_A_atn16 nn) s = .next { s with
      regs := { s.regs with a := s.busRead nn }, pc := s.pc + 3#16, next := s.cycles + 4 }

/-- R213, R214, R217, R218, R221, R222, R224, R226, R228: stores of one byte. -/
def Obligations.StoreToMemory : Prop :=
  ∀ (s : State) (r : R8) (n : Byte) (nn : Word),
    exec (.ldHlReg r) s = .next
      { s.busWrite s.hl (s.regs.get (regOf r)) with pc := s.pc + 1#16, next := s.cycles + 2 } ∧
    exec (.LD_atHL_n8 n) s = .next { s.busWrite s.hl n with pc := s.pc + 2#16, next := s.cycles + 3 } ∧
    exec .LD_atBC_A s = .next
      { s.busWrite (make16 s.regs.b s.regs.c) s.regs.a with pc := s.pc + 1#16, next := s.cycles + 2 } ∧
    exec .LD_atDE_A s = .next
      { s.busWrite (make16 s.regs.d s.regs.e) s.regs.a with pc := s.pc + 1#16, next := s.cycles + 2 } ∧
    exec .LD_atHLinc_A s = .next { s.busWrite s.hl s.regs.a with
      regs := { s.regs with h := highByte (s.hl + 1#16), l := lowByte (s.hl + 1#16) }
      pc := s.pc + 1#16, next := s.cycles + 2 } ∧
    exec .LD_atHLdec_A s = .next { s.busWrite s.hl s.regs.a with
      regs := { s.regs with h := highByte (s.hl - 1#16), l := lowByte (s.hl - 1#16) }
      pc := s.pc + 1#16, next := s.cycles + 2 } ∧
    exec (.LDH_atn8_A n) s = .next
      { s.busWrite (0xFF#8 ++ n) s.regs.a with pc := s.pc + 2#16, next := s.cycles + 3 } ∧
    exec .LD_atC_A s = .next
      { s.busWrite (0xFF#8 ++ s.regs.c) s.regs.a with pc := s.pc + 1#16, next := s.cycles + 2 } ∧
    exec (.LD_atn16_A nn) s = .next { s.busWrite nn s.regs.a with pc := s.pc + 3#16, next := s.cycles + 4 }

/-- R232 to R234: `PUSH` moves `sp` first, then stores the low byte at `sp` and the high byte above it; `POP` reads
the pair and moves `sp` up; `POP AF` clears the low nibble of F. -/
def Obligations.PushAndPop : Prop :=
  ∀ (s : State) (p : R16S),
    exec (.push p) s = .next
      { ({ s with sp := s.sp - 2#16 }.busWrite (s.sp - 2#16) (lowByte (s.pair p))).busWrite (s.sp - 1#16)
          (highByte (s.pair p)) with pc := s.pc + 1#16, next := s.cycles + 4 } ∧
    exec .POP_BC s = .next { s with
      regs := { s.regs with b := s.busRead (s.sp + 1#16), c := s.busRead s.sp }
      sp := s.sp + 2#16, pc := s.pc + 1#16, next := s.cycles + 3 } ∧
    exec .POP_DE s = .next { s with
      regs := { s.regs with d := s.busRead (s.sp + 1#16), e := s.busRead s.sp }
      sp := s.sp + 2#16, pc := s.pc + 1#16, next := s.cycles + 3 } ∧
    exec .POP_HL s = .next { s with
      regs := { s.regs with h := s.busRead (s.sp + 1#16), l := s.busRead s.sp }
      sp := s.sp + 2#16, pc := s.pc + 1#16, next := s.cycles + 3 } ∧
    exec .POP_AF s = .next { s with
      regs := { s.regs with a := s.busRead (s.sp + 1#16), f := s.busRead s.sp &&& 0xF0#8 }
      sp := s.sp + 2#16, pc := s.pc + 1#16, next := s.cycles + 3 }

/-- R95, R232, R233, R345, R347: on the default platform, with the stack in plain storage, what one pair pushes another
pops, and a return goes back behind its call. -/
def Obligations.StackRoundTrip : Prop :=
  ∀ (s : State) (p q : R16S) (nn : Word), s.platform = Platform.default → s.memoriesCanonical →
    storageCell (s.sp - 2#16) ≠ none → storageCell (s.sp - 1#16) ≠ none →
    (∃ t u, exec (.push p) s = .next t ∧ exec (.pop q) t = .next u ∧ u.sp = s.sp ∧
      u.pair q = if q = .AF then s.pair p &&& 0xFFF0#16 else s.pair p) ∧
    ∃ t u, exec (.CALL_n16 nn) s = .next t ∧ t.pc = nn ∧ exec .RET t = .next u ∧
      u.pc = s.pc + 3#16 ∧ u.sp = s.sp ∧ u.regs = s.regs

/-! ## Arithmetic, logic, rotates, bits (40_alu.md, 42_arith.md to 45_bit.md, 47_misc.md) -/

/-- R160, R161, R162, R164, R166, R168, R169: the Bit Engine on the 32-bit word and on bytes. -/
def Obligations.BitEngine : Prop :=
  (∀ i j : Nat, i < 32 → ((mask 32 i).getLsbD j = decide (j = i)) ∧ mask 32 i = 1#32 <<< i) ∧
  (∀ (w : BitVec 32) (i : Nat), i < 32 → testBit w i = decide (w.extractLsb' i 1 = 1#1)) ∧
  (∀ (w : BitVec 32) (i j : Nat) (v : Bool), i < 32 →
    (setBit w i v).getLsbD j = if j = i then v else w.getLsbD j) ∧
  (∀ (w : BitVec 32) (start size : Nat), start + size ≤ 32 →
    extract w start size = (w.extractLsb' start size).toNat) ∧
  (∀ b : Byte, (signExtend8 b).toInt = b.toInt ∧ (signExtend8 b).setWidth 16 = sext16 b ∧
    sext16 b = if b.getLsbD 7 then b.setWidth 16 + 0xFF00#16 else b.setWidth 16) ∧
  (∀ b : Byte, complement8 b = b ^^^ 0xFF#8) ∧
  ∀ hi lo : Byte, make16 hi lo = (hi.setWidth 16 <<< 8) ||| lo.setWidth 16

/-- R165: "rotation is invertible", for every size, value and distance. -/
def Obligations.RotationIsInvertible : Prop :=
  ∀ (size : Nat) (v : BitVec size) (d : Int), 0 < size → rotate (rotate v d) (-d) = v

/-- R175, R177, R183, R189: the packed form of an 8- or 16-bit result and its parts; the adder with its two
vectors, the logic operations, and the rotates through carry in their equivalent forms. That a rotate sets Z from its
result and clears N and H is general knowledge of the spec (40_alu.md section 5), not the source's. -/
def Obligations.AluPrimitives : Prop :=
  (∀ r : AluResult 8, r.pack = r.v.toNat * 256 + r.zf.toNat * 128 + r.nf.toNat * 64 + r.hf.toNat * 32 +
      r.cf.toNat * 16 ∧ unpackValue r.pack = r.v.toNat ∧ unpackFlags r.pack = packFlags r.zf r.nf r.hf r.cf ∧
      unpackFlags r.pack &&& 0x0F#8 = 0#8) ∧
  (∀ r : AluResult 16, r.pack = r.v.toNat * 256 + r.zf.toNat * 128 + r.nf.toNat * 64 + r.hf.toNat * 32 +
      r.cf.toNat * 16 ∧ unpackValue r.pack = r.v.toNat ∧ unpackFlags r.pack = packFlags r.zf r.nf r.hf r.cf ∧
      unpackFlags r.pack &&& 0x0F#8 = 0#8) ∧
  (∀ (l r : Byte) (c : Bool), add8 l r c =
    { v := l + r + (BitVec.ofBool c).setWidth 8
      zf := decide ((l.toNat + r.toNat + c.toNat) % 256 = 0), nf := false
      hf := decide (16 ≤ l.toNat % 16 + r.toNat % 16 + c.toNat)
      cf := decide (256 ≤ l.toNat + r.toNat + c.toNat) }) ∧
  (add8 0x0F#8 0x01#8 false).pack = 0x1020 ∧ (add8 0xFF#8 0x01#8 false).pack = 0x00B0 ∧
  (∀ l r : Byte, and8 l r = ⟨l &&& r, decide (l &&& r = 0#8), false, true, false⟩ ∧
    or8 l r = ⟨l ||| r, decide (l ||| r = 0#8), false, false, false⟩ ∧
    xor8 l r = ⟨l ^^^ r, decide (l = r), false, false, false⟩) ∧
  ∀ (v : Byte) (c : Bool),
    rotateC8 .left v c = ⟨(v <<< 1) ||| (BitVec.ofBool c).setWidth 8,
      decide ((v <<< 1) ||| (BitVec.ofBool c).setWidth 8 = 0#8), false, false, v.getLsbD 7⟩ ∧
    rotateC8 .right v c = ⟨(v >>> 1) ||| ((BitVec.ofBool c).setWidth 8 <<< 7),
      decide ((v >>> 1) ||| ((BitVec.ofBool c).setWidth 8 <<< 7) = 0#8), false, false, v.getLsbD 0⟩

/-- R178, R182: a subtraction undoes the addition before it, and equals the addition of the complement, with
complemented carries. -/
def Obligations.SubtractionLaws : Prop :=
  (∀ l r : Byte, (sub8 (add8 l r false).v r false).v = l ∧ ((add8 l r false).zf = true ↔ (add8 l r false).v = 0#8)) ∧
  ∀ (l r : Byte) (b : Bool), (sub8 l r b).v = (add8 l (~~~ r) (!b)).v ∧
    (sub8 l r b).cf = !(add8 l (~~~ r) (!b)).cf ∧ (sub8 l r b).hf = !(add8 l (~~~ r) (!b)).hf

/-- R250 to R255: `ADD` and `ADC` on every operand form. -/
def Obligations.AddResult : Prop :=
  ∀ (s : State) (op : AluOp) (i : Instr) (v : Byte) (length cost : Nat) (c : Nat),
    (op = .ADD ∧ c = 0) ∨ (op = .ADC ∧ c = s.flagC.toNat) → s.aluOperand op i v length cost →
    exec i s = .next { s with
      regs := { s.regs with
        a := BitVec.ofNat 8 (s.regs.a.toNat + v.toNat + c)
        f := packFlags (decide ((s.regs.a.toNat + v.toNat + c) % 256 = 0)) false
          (decide (16 ≤ s.regs.a.toNat % 16 + v.toNat % 16 + c)) (decide (256 ≤ s.regs.a.toNat + v.toNat + c)) }
      pc := s.pc + BitVec.ofNat 16 length, next := s.cycles + cost }

/-- R256 to R264: `SUB`, `SBC` and `CP` on every operand form; `CP` keeps A. -/
def Obligations.SubResult : Prop :=
  ∀ (s : State) (op : AluOp) (i : Instr) (v : Byte) (length cost : Nat) (c : Nat),
    (op = .SUB ∧ c = 0) ∨ (op = .SBC ∧ c = s.flagC.toNat) ∨ (op = .CP ∧ c = 0) →
    s.aluOperand op i v length cost →
    exec i s = .next { s with
      regs := { s.regs with
        a := if op = .CP then s.regs.a else s.regs.a - v - BitVec.ofNat 8 c
        f := packFlags (decide (s.regs.a = v + BitVec.ofNat 8 c)) true
          (decide (s.regs.a.toNat % 16 < v.toNat % 16 + c)) (decide (s.regs.a.toNat < v.toNat + c)) }
      pc := s.pc + BitVec.ofNat 16 length, next := s.cycles + cost }

/-- R290 to R298: `AND`, `OR` and `XOR` on every operand form. -/
def Obligations.LogicResult : Prop :=
  ∀ (s : State) (op : AluOp) (i : Instr) (v x : Byte) (length cost : Nat),
    (op = .AND ∧ x = s.regs.a &&& v) ∨ (op = .OR ∧ x = s.regs.a ||| v) ∨ (op = .XOR ∧ x = s.regs.a ^^^ v) →
    s.aluOperand op i v length cost →
    exec i s = .next { s with
      regs := { s.regs with a := x, f := packFlags (decide (x = 0#8)) false (decide (op = .AND)) false }
      pc := s.pc + BitVec.ofNat 16 length, next := s.cycles + cost }

/-- R265 to R268: 8-bit increment and decrement, of a register and of memory; C is kept. -/
def Obligations.IncDecByte : Prop :=
  ∀ (s : State) (r : R8),
    exec (.incReg r) s = .next { s with
      regs := { s.regs.set (regOf r) (s.r8 r + 1#8) with
        f := packFlags (decide (s.r8 r = 0xFF#8)) false (decide ((s.r8 r).toNat % 16 = 15)) s.flagC }
      pc := s.pc + 1#16, next := s.cycles + 1 } ∧
    exec (.decReg r) s = .next { s with
      regs := { s.regs.set (regOf r) (s.r8 r - 1#8) with
        f := packFlags (decide (s.r8 r = 0x01#8)) true (decide ((s.r8 r).toNat % 16 = 0)) s.flagC }
      pc := s.pc + 1#16, next := s.cycles + 1 } ∧
    exec .INC_atHL s = .next { s.busWrite s.hl (s.busRead s.hl + 1#8) with
      regs := { s.regs with
        f := packFlags (decide (s.busRead s.hl = 0xFF#8)) false
          (decide ((s.busRead s.hl).toNat % 16 = 15)) s.flagC }
      pc := s.pc + 1#16, next := s.cycles + 3 } ∧
    exec .DEC_atHL s = .next { s.busWrite s.hl (s.busRead s.hl - 1#8) with
      regs := { s.regs with
        f := packFlags (decide (s.busRead s.hl = 0x01#8)) true
          (decide ((s.busRead s.hl).toNat % 16 = 0)) s.flagC }
      pc := s.pc + 1#16, next := s.cycles + 3 }

/-- R269 to R273: 16-bit increments and decrements touch no flag; `ADD HL,rr` takes its carries from bits 11 and 15 and
keeps Z; `ADD SP,e8` and `LD HL,SP+e8` take theirs from the low byte and clear Z and N. -/
def Obligations.WordArithmetic : Prop :=
  ∀ (s : State) (p : R16) (e : Byte),
    (∃ t u, exec (.incPair p) s = .next t ∧ exec (.decPair p) s = .next u ∧
    t = { s.setR16 p (s.r16 p + 1#16) with pc := s.pc + 1#16, next := s.cycles + 2 } ∧
    u = { s.setR16 p (s.r16 p - 1#16) with pc := s.pc + 1#16, next := s.cycles + 2 } ∧
    t.r16 p = s.r16 p + 1#16 ∧ u.r16 p = s.r16 p - 1#16 ∧ t.regs.f = s.regs.f ∧ u.regs.f = s.regs.f) ∧
    exec (.addHl p) s = .next { s with
      regs := { s.regs with
        h := highByte (s.hl + s.r16 p), l := lowByte (s.hl + s.r16 p)
        f := packFlags s.flagZ false (decide (0x1000 ≤ s.hl.toNat % 0x1000 + (s.r16 p).toNat % 0x1000))
          (decide (0x10000 ≤ s.hl.toNat + (s.r16 p).toNat)) }
      pc := s.pc + 1#16, next := s.cycles + 2 } ∧
    exec (.ADD_SP_e8 e) s = .next { s with
      sp := s.sp + e.signExtend 16
      regs := { s.regs with
        f := packFlags false false (decide (16 ≤ s.sp.toNat % 16 + e.toNat % 16))
          (decide (256 ≤ s.sp.toNat % 256 + e.toNat)) }
      pc := s.pc + 2#16, next := s.cycles + 4 } ∧
    exec (.LD_HL_SPe8 e) s = .next { s with
      regs := { s.regs with
        h := highByte (s.sp + e.signExtend 16), l := lowByte (s.sp + e.signExtend 16)
        f := packFlags false false (decide (16 ≤ s.sp.toNat % 16 + e.toNat % 16))
          (decide (256 ≤ s.sp.toNat % 256 + e.toNat)) }
      pc := s.pc + 2#16, next := s.cycles + 3 }

/-- R299, R361 to R363: `CPL`, `DAA`, `SCF`, `CCF`. -/
def Obligations.AccumulatorAndFlagOperations : Prop :=
  ∀ (s : State),
    exec .CPL s = .next { s with
      regs := { s.regs with a := ~~~ s.regs.a, f := packFlags s.flagZ true true s.flagC }
      pc := s.pc + 1#16, next := s.cycles + 1 } ∧
    exec .SCF s = .next { s with
      regs := { s.regs with f := packFlags s.flagZ false false true }, pc := s.pc + 1#16, next := s.cycles + 1 } ∧
    exec .CCF s = .next { s with
      regs := { s.regs with f := packFlags s.flagZ false false (!s.flagC) }
      pc := s.pc + 1#16, next := s.cycles + 1 } ∧
    ∃ (lowFix highFix : Bool) (fix x : Byte),
      lowFix = (s.flagH || (!s.flagN && decide (9 < s.regs.a.toNat % 16))) ∧
      highFix = (s.flagC || (!s.flagN && decide (0x99 < s.regs.a.toNat))) ∧
      fix = (if lowFix then 0x06#8 else 0#8) + (if highFix then 0x60#8 else 0#8) ∧
      x = (if s.flagN then s.regs.a - fix else s.regs.a + fix) ∧
      exec .DAA s = .next { s with
        regs := { s.regs with a := x, f := packFlags (decide (x = 0#8)) s.flagN false highFix }
        pc := s.pc + 1#16, next := s.cycles + 1 }

/-- R181, R361: after an addition or a subtraction of two-digit decimal numbers, `DAA` leaves the decimal result
modulo 100, and the decimal carry or borrow in C. -/
def Obligations.DecimalAdjustIsDecimal : Prop :=
  ∀ (s : State) (r : R8) (x y : Nat), x < 100 → y < 100 → s.regs.a = bcdByte x → s.r8 r = bcdByte y →
    (∃ t u, exec (.aluReg .ADD r) s = .next t ∧ exec .DAA t = .next u ∧
      u.regs.a = bcdByte ((x + y) % 100) ∧ u.flagC = decide (100 ≤ x + y)) ∧
    ∃ t u, exec (.aluReg .SUB r) s = .next t ∧ exec .DAA t = .next u ∧
      u.regs.a = bcdByte ((x + 100 - y) % 100) ∧ u.flagC = decide (x < y)

/-- R300 to R319: the accumulator rotates, which clear Z, N and H, and the prefixed rotates, shifts and swaps, of a
register and of memory, bit by bit. -/
def Obligations.RotateShiftSwap : Prop :=
  (∀ (s : State) (i : Instr) (k : RotOp),
    (i, k) ∈ [(Instr.RLCA, RotOp.RLC), (Instr.RRCA, RotOp.RRC), (Instr.RLA, RotOp.RL), (Instr.RRA, RotOp.RR)] →
    ∃ x : Byte, (∀ j < 8, x.getLsbD j = rotBit k s.regs.a s.flagC j) ∧
      exec i s = .next { s with
        regs := { s.regs with a := x, f := packFlags false false false (rotCarry k s.regs.a) }
        pc := s.pc + 1#16, next := s.cycles + 1 }) ∧
  ∀ (s : State) (k : RotOp) (r : R8),
    (∃ x : Byte, (∀ j < 8, x.getLsbD j = rotBit k (s.r8 r) s.flagC j) ∧
      exec (.rotReg k r) s = .next { s with
        regs := { s.regs.set (regOf r) x with f := packFlags (decide (x = 0#8)) false false (rotCarry k (s.r8 r)) }
        pc := s.pc + 2#16, next := s.cycles + 2 }) ∧
    ∃ x : Byte, (∀ j < 8, x.getLsbD j = rotBit k (s.busRead s.hl) s.flagC j) ∧
      exec (.rotHl k) s = .next { s.busWrite s.hl x with
        regs := { s.regs with
          f := packFlags (decide (x = 0#8)) false false (rotCarry k (s.busRead s.hl)) }
        pc := s.pc + 2#16, next := s.cycles + 4 }

/-- R330 to R335: `BIT` sets Z to the complement of the tested bit and writes nothing else but N and H; `RES` and `SET`,
of a register and of memory, touch no flag. -/
def Obligations.BitOperations : Prop :=
  ∀ (s : State) (b : Field3) (r : R8),
    exec (.bitReg b r) s = .next { s with
      regs := { s.regs with f := packFlags (!(s.r8 r).getLsbD b.val) false true s.flagC }
      pc := s.pc + 2#16, next := s.cycles + 2 } ∧
    exec (.bitHl b) s = .next { s with
      regs := { s.regs with f := packFlags (!(s.busRead s.hl).getLsbD b.val) false true s.flagC }
      pc := s.pc + 2#16, next := s.cycles + 3 } ∧
    exec (.resReg b r) s = .next { s with
      regs := s.regs.set (regOf r) (s.r8 r &&& ~~~ (1#8 <<< b.val)), pc := s.pc + 2#16, next := s.cycles + 2 } ∧
    exec (.setReg b r) s = .next { s with
      regs := s.regs.set (regOf r) (s.r8 r ||| (1#8 <<< b.val)), pc := s.pc + 2#16, next := s.cycles + 2 } ∧
    exec (.resHl b) s = .next { s.busWrite s.hl (s.busRead s.hl &&& ~~~ (1#8 <<< b.val)) with
      pc := s.pc + 2#16, next := s.cycles + 4 } ∧
    exec (.setHl b) s = .next { s.busWrite s.hl (s.busRead s.hl ||| (1#8 <<< b.val)) with
      pc := s.pc + 2#16, next := s.cycles + 4 }

/-! ## Control transfer and system instructions (46_control.md, 47_misc.md) -/

/-- R127, R340 to R344: jumps; the offset counts from the next instruction; the conditions NZ, Z, NC, C are F[7] = 0,
F[7] = 1, F[4] = 0, F[4] = 1. -/
def Obligations.JumpResult : Prop :=
  ∀ (s : State) (c : Cond) (nn : Word) (e : Byte),
    exec (.JP_n16 nn) s = .next { s with pc := nn, next := s.cycles + 4 } ∧
    exec .JP_HL s = .next { s with pc := make16 s.regs.h s.regs.l, next := s.cycles + 1 } ∧
    exec (.JR_e8 e) s = .next { s with pc := s.pc + 2#16 + e.signExtend 16, next := s.cycles + 3 } ∧
    exec (.jpCond c nn) s = .next (if s.cond c = true then { s with pc := nn, next := s.cycles + 4 }
      else { s with pc := s.pc + 3#16, next := s.cycles + 3 }) ∧
    exec (.jrCond c e) s = .next (if s.cond c = true then
        { s with pc := s.pc + 2#16 + e.signExtend 16, next := s.cycles + 3 }
      else { s with pc := s.pc + 2#16, next := s.cycles + 2 }) ∧
    (s.cond .NZ = true ↔ s.regs.f.getLsbD 7 = false) ∧ (s.cond .Z = true ↔ s.regs.f.getLsbD 7 = true) ∧
    (s.cond .NC = true ↔ s.regs.f.getLsbD 4 = false) ∧ (s.cond .C = true ↔ s.regs.f.getLsbD 4 = true)

/-- R345, R346, R350: calls and restarts push the address of the next instruction, low byte at the lower address; a
call not taken pushes nothing. -/
def Obligations.CallResult : Prop :=
  ∀ (s : State) (c : Cond) (nn : Word) (t : Field3),
    exec (.CALL_n16 nn) s = .next { ({ s with sp := s.sp - 2#16 }.busWrite (s.sp - 2#16)
        (lowByte (s.pc + 3#16))).busWrite (s.sp - 1#16) (highByte (s.pc + 3#16)) with
      pc := nn, next := s.cycles + 6 } ∧
    exec (.callCond c nn) s = .next (if s.cond c = true then { ({ s with sp := s.sp - 2#16 }.busWrite (s.sp - 2#16)
        (lowByte (s.pc + 3#16))).busWrite (s.sp - 1#16) (highByte (s.pc + 3#16)) with
      pc := nn, next := s.cycles + 6 } else { s with pc := s.pc + 3#16, next := s.cycles + 3 }) ∧
    exec (.rst t) s = .next { ({ s with sp := s.sp - 2#16 }.busWrite (s.sp - 2#16)
        (lowByte (s.pc + 1#16))).busWrite (s.sp - 1#16) (highByte (s.pc + 1#16)) with
      pc := BitVec.ofNat 16 (8 * t.val), next := s.cycles + 4 }

/-- R347 to R349: returns; `RETI` also sets IME. -/
def Obligations.ReturnResult : Prop :=
  ∀ (s : State) (c : Cond),
    exec .RET s = .next { s with
      pc := make16 (s.busRead (s.sp + 1#16)) (s.busRead s.sp), sp := s.sp + 2#16, next := s.cycles + 4 } ∧
    exec (.retCond c) s = .next (if s.cond c = true then { s with
        pc := make16 (s.busRead (s.sp + 1#16)) (s.busRead s.sp), sp := s.sp + 2#16, next := s.cycles + 5 }
      else { s with pc := s.pc + 1#16, next := s.cycles + 2 }) ∧
    exec .RETI s = .next { s with
      pc := make16 (s.busRead (s.sp + 1#16)) (s.busRead s.sp), sp := s.sp + 2#16, ime := true
      next := s.cycles + 4 }

/-- R360, R364 to R366: `NOP`, `DI`, `EI`, `HALT`; `DI` and `EI` take effect at once. -/
def Obligations.InterruptControl : Prop :=
  ∀ s : State,
    exec .NOP s = .next { s with pc := s.pc + 1#16, next := s.cycles + 1 } ∧
    exec .DI s = .next { s with ime := false, pc := s.pc + 1#16, next := s.cycles + 1 } ∧
    exec .EI s = .next { s with ime := true, pc := s.pc + 1#16, next := s.cycles + 1 } ∧
    exec .HALT s = .next { s with halted := true, pc := s.pc + 1#16 }

/-- R367, R368: `STOP` and the eleven unassigned bytes fault on every path, naming the opcode's address. -/
def Obligations.StopAndUnassignedBytesFault : Prop :=
  ∀ s : State, exec .STOP s = .fault (.stopInstruction s.pc) ∧
    ∀ (i : Instr) (b : Byte), i.form = .illegal b →
      exec i s = .fault (.illegalOpcode s.pc b) ∧ encode i = [b] ∧ b ∈ faultingBytes

/-! ## Faults, interrupts, ticks (60_exceptions.md) -/

/-- R380, R384: a step of a machine without a fault completes, or faults with the first byte at `pc`; it never
refuses. -/
def Obligations.StepFaultsOnlyOnTwelveBytes : Prop :=
  ∀ s : State, s.fault = none →
    (∃ t, step s = .next t ∧ t.fault = none) ∨
    ((devicesStep s).busRead s.pc ∈ faultingBytes ∧
      step s = .fault (faultOf s.pc ((devicesStep s).busRead s.pc)))

/-- R381: a fault is precise and for good: the devices' steps of the tick stand, nothing of the CPU changes, the tick
is not counted, and every later request answers the same fault and changes nothing. The terminal state is the spec's
decision D27; that `halted` and `next` stay as before the wake where the waking tick faults is the model's inference
(DEDUCED, log 14). -/
def Obligations.FaultIsPreciseAndTerminal : Prop :=
  ∀ (s : State) (f : Fault), s.fault = none → step s = .fault f →
    ∃ u : State, u = { devicesStep s with fault := some f } ∧
      u.regs = s.regs ∧ u.pc = s.pc ∧ u.sp = s.sp ∧ u.ime = s.ime ∧ u.halted = s.halted ∧ u.next = s.next ∧
      u.cycles = s.cycles ∧ (∀ n, runTicks (n + 1) s = (u, some f)) ∧
      step u = .fault f ∧ (∀ n, runTicks (n + 1) u = (u, some f)) ∧ ∀ target, runUntil target u = (u, some f)

/-- R390 to R392: at a boundary, and from `HALT`, the enabled pending line of the lowest index is dispatched in place
of an instruction: IME and its pending bit cleared, `pc` pushed low byte first, the vector, five cycles. -/
def Obligations.DispatchTakesTheLowestLine : Prop :=
  ∀ (s : State) (i : Line),
    s.fault = none → s.ime = true → (s.halted = true ∨ s.next = s.cycles) →
    ((devicesStep s).ie &&& (devicesStep s).iflag).getLsbD i.index = true →
    (∀ j < i.index, ((devicesStep s).ie &&& (devicesStep s).iflag).getLsbD j = false) →
    step s = .next { ({ devicesStep s with
        ime := false, iflag := (devicesStep s).iflag &&& ~~~ (1#8 <<< i.index)
        sp := s.sp - 2#16, halted := false, next := s.cycles }.busWrite (s.sp - 2#16) (lowByte s.pc)).busWrite
          (s.sp - 1#16) (highByte s.pc) with
      pc := BitVec.ofNat 16 (0x40 + 8 * i.index), next := s.cycles + 5, cycles := s.cycles + 1 }

/-- R393, R394: before its boundary, or halted with nothing enabled and pending, the CPU does nothing in a tick; an enabled
pending line wakes a halted CPU whatever IME is, and the same tick is its boundary. -/
def Obligations.IdleTicksAndHaltWake : Prop :=
  (∀ s : State, s.fault = none →
    (s.halted = true ∧ (devicesStep s).pend = 0#8) ∨ (s.halted = false ∧ s.cycles ≠ s.next) →
    step s = .next { devicesStep s with cycles := s.cycles + 1 }) ∧
  ∀ s : State, s.fault = none → s.halted = true → (devicesStep s).pend ≠ 0#8 →
    step s = step { s with halted := false, next := s.cycles }

/-- R27: IME has no bus address; `DI`, `EI`, `RETI` and dispatch write it and nothing else does; no instruction, no
device, not the wake test and not the boundary test reads it: a tick in which no dispatch can be does not depend on it. -/
def Obligations.ImeIsWrittenAndReadOnlyWhereStated : Prop :=
  (∀ (s : State) (b : Bool) (a : Word), { s with ime := b }.busRead a = s.busRead a) ∧
  (∀ (s : State) (a : Word) (d : Byte), (s.busWrite a d).ime = s.ime) ∧
  (∀ s : State, (∃ t, exec .DI s = .next t ∧ t.ime = false) ∧ (∃ t, exec .EI s = .next t ∧ t.ime = true) ∧
    ∃ t, exec .RETI s = .next t ∧ t.ime = true) ∧
  (∀ (i : Line) (s : State), (dispatch i s).ime = false) ∧
  (∀ (s : State) (b : Bool), devicesStep { s with ime := b } = { devicesStep s with ime := b }) ∧
  (∀ (i : Instr) (s t : State) (b : Bool), exec i s = .next t →
    exec i { s with ime := b } = .next (if i.form.writesIme = true then t else { t with ime := b }) ∧
    (i.form.writesIme = false → t.ime = s.ime)) ∧
  (∀ (s : State) (b : Bool), wake { s with ime := b } = { wake s with ime := b }) ∧
  (∀ (s : State) (b : Bool), (devicesStep s).pend = 0#8 ∨ (s.halted = false ∧ s.cycles ≠ s.next) →
    (∀ t, step s = .next t → step { s with ime := b } = .next { t with ime := b } ∨
      ((devicesStep s).fetched.form.writesIme = true ∧ step { s with ime := b } = .next t)) ∧
    ∀ f, step s = .fault f → step { s with ime := b } = .fault f) ∧
  ∀ s t : State, step s = .next t → t.ime ≠ s.ime →
    (s.ime = true ∧ t.ime = false ∧ (devicesStep s).pend ≠ 0#8) ∨
      ∃ i : Instr, i.form.writesIme = true ∧ i = (devicesStep s).fetched

/-- R388, R422: the timer and the picture unit reach the CPU only by setting IF bits 0 to 2, in the tick itself. -/
def Obligations.DevicesReachTheCpuOnlyThroughIf : Prop :=
  ∀ s : State, s.sameCpu (devicesStep s) ∧ (devicesStep s).ie = s.ie ∧ (devicesStep s).hram = s.hram ∧
    (devicesStep s).mem = s.mem ∧ (devicesStep s).bootActive = s.bootActive ∧
    ∃ m : Byte, (devicesStep s).iflag = s.iflag ||| m ∧ m &&& 0xF8#8 = 0#8

/-- R421: `RunUntil` refuses a target in the past and changes nothing then; at a target not in the past it ends
there unless a tick faults. -/
def Obligations.RunUntilReachesItsTarget : Prop :=
  ∀ (s : State) (target : Nat), s.fault = none →
    (target < s.cycles → runUntil target s = (s, some (.hostContractViolation .runUntilRegression))) ∧
    runUntil s.cycles s = (s, none) ∧
    (s.cycles ≤ target → (runUntil target s).2 = none →
      (runUntil target s).1.cycles = target ∧ (runUntil target s).1.fault = none)

/-! ## The timer -/

/-- R408: the step adds 4 to the divider and increments TIMA on a falling edge; DIV rises once in 64 steps and the
divider returns after 16384. -/
def Obligations.TimerStepEveryTick : Prop :=
  (∀ s : State, timerStep s =
    let t : State := { s with timer := { s.timer with div16 := BitVec.ofNat 16 (s.timer.div16.toNat + 4) } }
    if timerSignal s.timer = true ∧ timerSignal t.timer = false then timaIncrement t else t) ∧
  ∀ s : State, highByte (Nat.iterate timerStep 64 s).timer.div16 = highByte s.timer.div16 + 1#8 ∧
    (Nat.iterate timerStep 16384 s).timer.div16 = s.timer.div16

/-- R406, R407, R412: the signal, the edge and the overflow: TIMA reloads and line 2 is requested in one step. -/
def Obligations.TimaIncrementsOnFallingEdge : Prop :=
  ∀ (s0 : Bool) (s : State),
    timerSignal s.timer = (s.timer.tac.getLsbD 2 &&
      s.timer.div16.getLsbD (if s.timer.tac &&& 3#8 = 0#8 then 9 else if s.timer.tac &&& 3#8 = 1#8 then 3
        else if s.timer.tac &&& 3#8 = 2#8 then 5 else 7)) ∧
    timerEdge s0 s = if s0 = true ∧ timerSignal s.timer = false then
        if s.timer.tima = 0xFF#8 then
          { s with timer := { s.timer with tima := s.timer.tma }, iflag := s.iflag ||| 0x04#8 }
        else { s with timer := { s.timer with tima := s.timer.tima + 1#8 } }
      else s

/-- R409, R411: a write to DIV clears the whole divider, a write to TAC stores the byte, and either increments TIMA if
the signal falls; the bus of the default platform (log 4, addresses by the spec's decision D9) brings these writes to
the timer and to nothing else. -/
def Obligations.DivAndTacWrites : Prop :=
  ∀ (s : State) (d : Byte),
    Component.write .timer addrDIV d s =
      (let t : State := { s with timer := { s.timer with div16 := 0#16 } }
       if timerSignal s.timer = true then timaIncrement t else t) ∧
    Component.write .timer addrTAC d s =
      (let t : State := { s with timer := { s.timer with tac := d } }
       if timerSignal s.timer = true ∧ timerSignal t.timer = false then timaIncrement t else t) ∧
    (s.platform = Platform.default → s.busWrite addrDIV d = Component.write .timer addrDIV d s ∧
      s.busWrite addrTAC d = Component.write .timer addrTAC d s)

/-- R413: enabled and left alone, TIMA advances exactly once in every 256, 4, 16 or 64 ticks, and requests line 2
when that advance overflows. -/
def Obligations.TimerRate : Prop :=
  ∀ (s : State) (n : Nat), s.timer.tac.getLsbD 2 = true →
    n = (if s.timer.tac &&& 3#8 = 0#8 then 256 else if s.timer.tac &&& 3#8 = 1#8 then 4
      else if s.timer.tac &&& 3#8 = 2#8 then 16 else 64) →
    (s.timer.tima ≠ 0xFF#8 → (Nat.iterate timerStep n s).timer.tima = s.timer.tima + 1#8 ∧
      (Nat.iterate timerStep n s).iflag = s.iflag) ∧
    (s.timer.tima = 0xFF#8 → (Nat.iterate timerStep n s).timer.tima = s.timer.tma ∧
      (Nat.iterate timerStep n s).iflag = s.iflag ||| 0x04#8)

/-! ## The bus (20_memory.md) -/

/-- R52, R73: a read gives the answer of the first component, in attachment order, that has one, and 0xFF if none
has; no step changes the list. -/
def Obligations.BusReadsTheFirstOwner : Prop :=
  (∀ (s : State) (a : Word) (before after : List Component) (c : Component) (v : Byte),
    s.platform.components = before ++ c :: after → (∀ x ∈ before, x.read s a = none) → c.read s a = some v →
    s.busRead a = v) ∧
  (∀ (s : State) (a : Word), (∀ x ∈ s.platform.components, x.read s a = none) → s.busRead a = 0xFF#8) ∧
  ∀ s t : State, step s = .next t → t.platform = s.platform

/-- R74: a write reaches every component in attachment order: every RAM that owns the address holds the byte
afterwards, and a write that nobody owns changes nothing. R86 (the spec's decision D37): a write of any byte to 0xFF50
clears `bootActive` for good where a boot shadow is attached, and nothing else changes it; the shadow answers reads of its
window while it is set. That the shadow owns writes to 0xFF50 without answering reads there is the model's choice (log
19), so that the last clause leaves 0xFF50 out where a shadow is attached. -/
def Obligations.BusWriteIsBroadcast : Prop :=
  (∀ (s : State) (a : Word) (d : Byte) (before after : List Component),
    s.platform.components = before ++ after →
    s.busWrite a d = after.foldl (fun t c => c.write a d t) (before.foldl (fun t c => c.write a d t) s)) ∧
  (∀ (s : State) (a : Word) (d : Byte) (r : Region), s.memoriesCanonical →
    Component.ram r ∈ s.platform.components → r.owns a = true → (s.busWrite a d).mem.read (r.key a) = d) ∧
  (∀ (s : State) (d : Byte) (base : Nat), Component.bootRom base ∈ s.platform.components →
    (s.busWrite 0xFF50#16 d).bootActive = false) ∧
  (∀ s t : State, s.bootActive = false → step s = .next t → t.bootActive = false) ∧
  (∀ (s : State) (a : Word) (d : Byte), s.platform.hasBootRom = false ∨ a ≠ 0xFF50#16 →
    (s.busWrite a d).bootActive = s.bootActive) ∧
  (∀ (s : State) (a : Word) (base : Nat), Component.read (.bootRom base) s a =
    if s.bootActive = true ∧ a.toNat ≤ 0xFF then some (s.mem.read (base + a.toNat)) else none) ∧
  ∀ (s : State) (a : Word) (d : Byte), (∀ x ∈ s.platform.components, x.read s a = none) →
    s.platform.hasBootRom = false ∨ a ≠ 0xFF50#16 → s.busWrite a d = s

/-- R28, R29, R34, R48, R49, R80, R83 to R85, R90: on the default platform a store to plain storage is read back at its
address, and at the echo's address of the same cell, and nowhere else; IE and IF store all eight bits of a write and give
them back; ROM writes are dropped, and what nobody owns reads 0xFF and drops writes. That 0xA000 to 0xBFFF and 0xFF50
have no owner (no external RAM, no boot ROM: log 4) and that 0xFF00 has none (no joypad component, to which R90 gives it:
log 17) is the model's choice; the rest of the map is the spec's decisions D9, D13 and D37. -/
def Obligations.DefaultMemoryMap : Prop :=
  (∀ (s : State) (a b : Word) (d : Byte) (k : Nat), s.platform = Platform.default → s.memoriesCanonical →
    storageCell a = some k → (s.busWrite a d).busRead b = if storageCell b = some k then d else s.busRead b) ∧
  ∀ (s : State) (a : Word) (d : Byte), s.platform = Platform.default →
    (unownedByDefault a = true → s.busRead a = 0xFF#8 ∧ s.busWrite a d = s) ∧
    (a.toNat < 0x8000 → s.busWrite a d = s) ∧
    s.busWrite addrIE d = { s with ie := d } ∧ (s.busWrite addrIE d).busRead addrIE = d ∧
    s.busWrite addrIF d = { s with iflag := d } ∧ (s.busWrite addrIF d).busRead addrIF = d ∧
    s.busRead addrIE = s.ie ∧ s.busRead addrIF = s.iflag

/-! ## The picture unit (65_ppu.md) -/

/-- R44, R458: a write to LYC is read back and evaluates the coincidence: STAT[2], and an LCD_STAT request where
STAT[6] is set; the bus of the default platform (log 4, addresses by the spec's decision D9) brings it to the picture
unit and to nothing else. -/
def Obligations.LycWriteEvaluatesCoincidence : Prop :=
  ∀ (s : State) (d : Byte),
    Component.write .ppu 0xFF45#16 d s = { s with
      ppu := { s.ppu with lyc := d, stat := (s.ppu.stat &&& 0xFB#8) ||| (if s.ppu.ly = d then 0x04#8 else 0#8) }
      iflag := if s.ppu.ly = d ∧ s.ppu.stat.getLsbD 6 = true then s.iflag ||| 0x02#8 else s.iflag } ∧
    Component.read .ppu (Component.write .ppu 0xFF45#16 d s) 0xFF45#16 = some d ∧
    (s.platform = Platform.default → s.busWrite 0xFF45#16 d = Component.write .ppu 0xFF45#16 d s ∧
      (s.busWrite 0xFF45#16 d).busRead 0xFF45#16 = d)

/-- R410, R451: the register writes without a further effect: STAT keeps its three low bits, LY ignores a write, LCDC is
only stored unless the write turns a running LCD off, and SCY, SCX, BGP, OBP0, OBP1, WY, WX, TIMA and TMA are stored; every
register reads as its stored byte, DIV as the upper byte of the divider (R35). The bus of the default platform (log 4)
brings each access to its component and to nothing else. Addresses and masks are the spec's decisions D9, D16 and D17. -/
def Obligations.PlainRegisterWrites : Prop :=
  ∀ (s : State) (d : Byte),
    (Component.write .ppu 0xFF41#16 d s =
        { s with ppu := { s.ppu with stat := (d &&& 0xF8#8) ||| (s.ppu.stat &&& 0x07#8) } } ∧
      Component.write .ppu 0xFF44#16 d s = s ∧
      (d.getLsbD 7 = true ∨ s.ppu.lcdActive = false →
        Component.write .ppu 0xFF40#16 d s = { s with ppu := { s.ppu with lcdc := d } }) ∧
      Component.write .ppu 0xFF42#16 d s = { s with ppu := { s.ppu with scy := d } } ∧
      Component.write .ppu 0xFF43#16 d s = { s with ppu := { s.ppu with scx := d } } ∧
      Component.write .ppu 0xFF47#16 d s = { s with ppu := { s.ppu with bgp := d } } ∧
      Component.write .ppu 0xFF48#16 d s = { s with ppu := { s.ppu with obp0 := d } } ∧
      Component.write .ppu 0xFF49#16 d s = { s with ppu := { s.ppu with obp1 := d } } ∧
      Component.write .ppu 0xFF4A#16 d s = { s with ppu := { s.ppu with wy := d } } ∧
      Component.write .ppu 0xFF4B#16 d s = { s with ppu := { s.ppu with wx := d } } ∧
      Component.write .timer 0xFF05#16 d s = { s with timer := { s.timer with tima := d } } ∧
      Component.write .timer 0xFF06#16 d s = { s with timer := { s.timer with tma := d } }) ∧
    ([0xFF40#16, 0xFF41#16, 0xFF42#16, 0xFF43#16, 0xFF44#16, 0xFF45#16, 0xFF46#16, 0xFF47#16, 0xFF48#16, 0xFF49#16,
        0xFF4A#16, 0xFF4B#16].map fun a => Component.read .ppu s a) =
      [s.ppu.lcdc, s.ppu.stat, s.ppu.scy, s.ppu.scx, s.ppu.ly, s.ppu.lyc, s.ppu.dma, s.ppu.bgp, s.ppu.obp0, s.ppu.obp1,
        s.ppu.wy, s.ppu.wx].map some ∧
    ([0xFF04#16, 0xFF05#16, 0xFF06#16, 0xFF07#16].map fun a => Component.read .timer s a) =
      [highByte s.timer.div16, s.timer.tima, s.timer.tma, s.timer.tac].map some ∧
    (s.platform = Platform.default →
      (∀ a : Word, 0xFF40 ≤ a.toNat → a.toNat ≤ 0xFF4B →
        s.busWrite a d = Component.write .ppu a d s ∧ some (s.busRead a) = Component.read .ppu s a) ∧
      ∀ a : Word, 0xFF04 ≤ a.toNat → a.toNat ≤ 0xFF07 →
        s.busWrite a d = Component.write .timer a d s ∧ some (s.busRead a) = Component.read .timer s a)

/-- R451 to R453 on the default platform: clearing LCDC[7] while the LCD runs stops it at line 0, mode 0; the next
picture step after setting it starts a frame. R450, R454, R455, R457, R458 on every platform, at each position of a frame
but line 144's start (VblankLatchesTheFrame): line, mode, coincidence and the LCD_STAT requests of mode 2 (STAT[5]), mode 0
(STAT[3]) and the coincidence (STAT[6]); mode 3 requests nothing, and elsewhere only the copy acts. R459, R493, R495, R499,
R503: offset 20 of a visible line fills its slot with the line of that tick and raises `winY` where the window is drawn; a
frame's start empties the slots and clears `winY`; the image changes only at line 144's start. Bits, requests, switching
and the window counter are the spec's decisions D17, D18, D19, D22, D25, D30 and D31. -/
def Obligations.LcdOffAndOn : Prop :=
  (∀ (s : State) (d : Byte), s.platform = Platform.default → s.ppu.lcdActive = true → d.getLsbD 7 = false →
    s.busWrite 0xFF40#16 d = { s with
      ppu := { s.ppu with
        lcdc := d, lcdActive := false, ly := 0#8
        stat := (s.ppu.stat &&& 0xF8#8) ||| (if s.ppu.lyc = 0#8 then 0x04#8 else 0#8) }
      iflag := if s.ppu.lyc = 0#8 ∧ s.ppu.stat.getLsbD 6 = true then s.iflag ||| 0x02#8 else s.iflag }) ∧
  (∀ s : State, s.ppu.lcdActive = false → s.ppu.lcdc.getLsbD 7 = true →
    (ppuStep s).ppu.lcdActive = true ∧ (ppuStep s).ppu.lcdOnCycle = s.cycles ∧ (ppuStep s).ppu.ly = 0#8 ∧
    (ppuStep s).ppu.stat &&& 3#8 = 2#8 ∧ (ppuStep s).ppu.winY = 0 ∧
    (ppuStep s).ppu.nextFrame = List.replicate 144 none ∧
    (ppuStep s).ppu.currentImage = s.ppu.currentImage ∧
    (ppuStep s).ppu.stat = (s.ppu.stat &&& 0xF8#8) ||| 2#8 ||| (if s.ppu.lyc = 0#8 then 0x04#8 else 0#8) ∧
    (ppuStep s).iflag = s.iflag |||
      (if s.ppu.stat.getLsbD 5 = true ∨ (s.ppu.lyc = 0#8 ∧ s.ppu.stat.getLsbD 6 = true) then 0x02#8 else 0#8)) ∧
  ∀ (s : State) (line offset : Nat), s.ppu.lcdActive = true → line < 154 → offset < 114 →
    (s.cycles - s.ppu.lcdOnCycle) % 17556 = 114 * line + offset →
    (offset = 0 → line < 144 →
      (ppuStep s).ppu.ly = BitVec.ofNat 8 line ∧
      (ppuStep s).ppu.stat =
        (s.ppu.stat &&& 0xF8#8) ||| 2#8 ||| (if s.ppu.lyc = BitVec.ofNat 8 line then 0x04#8 else 0#8) ∧
      (ppuStep s).iflag = s.iflag |||
        (if s.ppu.stat.getLsbD 5 = true ∨ (s.ppu.lyc = BitVec.ofNat 8 line ∧ s.ppu.stat.getLsbD 6 = true) then 0x02#8
          else 0#8)) ∧
    (offset = 20 → line < 144 →
      (ppuStep s).ppu.stat = (s.ppu.stat &&& 0xFC#8) ||| 3#8 ∧ (ppuStep s).iflag = s.iflag ∧
      (ppuStep s).ppu.ly = s.ppu.ly) ∧
    (offset = 63 → line < 144 →
      (ppuStep s).ppu.stat = s.ppu.stat &&& 0xFC#8 ∧ (ppuStep s).ppu.ly = s.ppu.ly ∧
      (ppuStep s).iflag = s.iflag ||| (if s.ppu.stat.getLsbD 3 = true then 0x02#8 else 0#8)) ∧
    (offset = 0 → 144 < line →
      (ppuStep s).ppu.ly = BitVec.ofNat 8 line ∧
      (ppuStep s).ppu.stat = (s.ppu.stat &&& 0xFB#8) ||| (if s.ppu.lyc = BitVec.ofNat 8 line then 0x04#8 else 0#8) ∧
      (ppuStep s).iflag = s.iflag |||
        (if s.ppu.lyc = BitVec.ofNat 8 line ∧ s.ppu.stat.getLsbD 6 = true then 0x02#8 else 0#8)) ∧
    (offset ≠ 0 → (144 ≤ line ∨ (offset ≠ 20 ∧ offset ≠ 63)) → ppuStep s = dmaStep s) ∧
    (offset = 20 → line < 144 →
      (ppuStep s).ppu.nextFrame =
        s.ppu.nextFrame.set line (some ((dmaStep s).ppu.computeLine s.platform.obj16MaskBit0 line)) ∧
      (ppuStep s).ppu.winY = if s.ppu.lcdc.getLsbD 5 = true ∧ s.ppu.wy.toNat ≤ line ∧ s.ppu.wx.toNat - 7 < 160
        then s.ppu.winY + 1 else s.ppu.winY) ∧
    (offset = 0 → line = 0 →
      (ppuStep s).ppu.nextFrame = List.replicate 144 none ∧ (ppuStep s).ppu.winY = 0) ∧
    ((offset ≠ 0 ∨ line ≠ 0) → (offset ≠ 20 ∨ 144 ≤ line) →
      (ppuStep s).ppu.nextFrame = s.ppu.nextFrame ∧ (ppuStep s).ppu.winY = s.ppu.winY) ∧
    ((offset ≠ 0 ∨ line ≠ 144) → (ppuStep s).ppu.currentImage = s.ppu.currentImage)

/-- R456: at line 144 the composed lines become the image and line 0 is requested, whatever STAT holds; LY is 144 (R454,
R455), the mode 1 and STAT[2] the coincidence (R457, R458), and the same tick raises LCD_STAT exactly as R457 (STAT[4])
and R458 (LYC = 144 with STAT[6]) say, by the spec's decisions D17 and D22. -/
def Obligations.VblankLatchesTheFrame : Prop :=
  ∀ (s : State) (rows : List (LcdImageLine 160)), s.ppu.lcdActive = true →
    (s.cycles - s.ppu.lcdOnCycle) % 17556 = 16416 → s.ppu.nextFrame = rows.map some →
    (∀ (r x : Nat) (L : LcdImageLine 160), rows[r]? = some L → x < 160 →
      ((ppuStep s).ppu.currentImage.getD r []).getD x 0#2 = L.colour x) ∧
    (ppuStep s).ppu.currentImage.length = rows.length ∧
    (ppuStep s).iflag.getLsbD 0 = true ∧
    (ppuStep s).iflag.getLsbD 1 = (s.iflag.getLsbD 1 || s.ppu.stat.getLsbD 4 ||
      (decide (s.ppu.lyc = 144#8) && s.ppu.stat.getLsbD 6)) ∧
    (ppuStep s).ppu.ly = 144#8 ∧
    (ppuStep s).ppu.stat = (s.ppu.stat &&& 0xF8#8) ||| 1#8 ||| (if s.ppu.lyc = 144#8 then 0x04#8 else 0#8)

/-- R45, R460: any write to DMA, also during a copy, is read back and starts the copy from offset 0; the bus of the
default platform (log 4, addresses by the spec's decision D9) brings it to the picture unit and to nothing else. -/
def Obligations.DmaWriteStartsTheCopy : Prop :=
  ∀ (s : State) (d : Byte),
    Component.write .ppu 0xFF46#16 d s =
      { s with ppu := { s.ppu with dma := d, dmaActive := true, dmaIndex := 0 } } ∧
    Component.read .ppu (Component.write .ppu 0xFF46#16 d s) 0xFF46#16 = some d ∧
    (s.platform = Platform.default → s.busWrite 0xFF46#16 d = Component.write .ppu 0xFF46#16 d s ∧
      (s.busWrite 0xFF46#16 d).busRead 0xFF46#16 = d)

/-- R461, R462: 160 steps of a copy that nothing disturbs leave in OAM what the bus gave for the source page,
whatever the page, and change nothing else. -/
def Obligations.DmaCopiesThePage : Prop :=
  ∀ s : State, s.memoriesCanonical → s.ppu.dmaActive = true → s.ppu.dmaIndex = 0 →
    ∃ oam : Memory,
      Nat.iterate dmaStep 160 s = { s with ppu := { s.ppu with oam := oam, dmaIndex := 160, dmaActive := false } } ∧
      ∀ k < 160, oam.read k = s.busRead (make16 s.ppu.dma (BitVec.ofNat 8 k))

/-- R481 to R485: extraction and shift of bit vectors, column by column, and the source's laws. -/
def Obligations.BitVectorExtraction : Prop :=
  (∀ (n size : Nat) (v : BitVec n) (start : Int) (i : Nat), i < size →
    (extractZeroExtended v start size).getLsbD i =
      (decide (0 ≤ start + i) && v.getLsbD (start + i).toNat)) ∧
  (∀ (n size : Nat) (v : BitVec n) (start : Int) (i : Nat), 0 < n → i < size →
    (extractWrapped v start size).getLsbD i = v.getLsbD ((start + i) % (n : Int)).toNat) ∧
  (∀ (n : Nat) (v : BitVec n) (k : Int), shiftVector v k = extractZeroExtended v (-k) n ∧
    ∀ i < n, (shiftVector v k).getLsbD i = (decide (k ≤ i) && v.getLsbD ((i : Int) - k).toNat)) ∧
  ∀ (n size : Nat) (v : BitVec n), 0 < n → extractWrapped v 0 n = v ∧ extractZeroExtended v n size = 0#size

/-- R475, R487 to R491: the operations on scanlines, pixel by pixel; in a line of 32 tile rows, pixel `8 j + k` has the
bits `7 - k` of the row's two bytes, and is opaque where its colour index is not 0 (R486, the spec's decision D38). -/
def Obligations.ScanlineAlgebra : Prop :=
  (∀ (p : Byte) (i : BitVec 2), palette p i = p.extractLsb' (2 * i.toNat) 2 ∧ palette 0xE4#8 i = i) ∧
  (∀ (n : Nat) (L : LcdImageLine n) (p : Byte) (i : Nat), i < n →
    (L.mapColors p).colour i = palette p (L.colour i) ∧ (L.mapColors p).opacity = L.opacity ∧
    L.mapColors 0xE4#8 = L) ∧
  (∀ (n : Nat) (A B : LcdImageLine n) (mask : BitVec n) (i : Nat), i < n →
    (A.belowMask B mask).colour i = (if mask.getLsbD i then B.colour i else A.colour i) ∧
    (A.belowMask B mask).opacity = mask ||| A.opacity ∧ A.below B = A.belowMask B B.opacity) ∧
  (∀ (n k : Nat) (A B : LcdImageLine n) (i : Nat), k ≤ n → i < n →
    (A.join B k).colour i = (if i < k then A.colour i else B.colour i) ∧
    (A.join B k).opaqueAt i = (if i < k then A.opaqueAt i else B.opaqueAt i)) ∧
  (∀ (n size : Nat) (L : LcdImageLine n) (k : Int),
    L.shift k = ⟨shiftVector L.msb k, shiftVector L.lsb k, shiftVector L.opacity k⟩ ∧
    L.extractWrapped k size =
      ⟨extractWrapped L.msb k size, extractWrapped L.lsb k size, extractWrapped L.opacity k size⟩) ∧
  ∀ (f : Nat → Byte × Byte) (j k : Nat), j < 32 → k < 8 →
    (lineFromTiles f).lsb.getLsbD (8 * j + k) = (f j).1.getLsbD (7 - k) ∧
    (lineFromTiles f).msb.getLsbD (8 * j + k) = (f j).2.getLsbD (7 - k) ∧
    (lineFromTiles f).opaqueAt (8 * j + k) = ((f j).1.getLsbD (7 - k) || (f j).2.getLsbD (7 - k))

/-- R493 to R498, R501: every pixel of a rendered line is what the per-pixel rule gives, for every state of the
picture unit. -/
def Obligations.RenderedLineIsThePixelRule : Prop :=
  ∀ (p : Ppu) (maskBit0 : Bool) (ly x : Nat), x < 160 →
    (p.computeLine maskBit0 ly).colour x = p.pixel maskBit0 ly x

/-! ## Reset and invariants -/

/-- R55, R86, R90, R92: the state after reset: everything zero, false or empty; `bootActive` is set exactly where a boot
ROM is attached, which the default platform has none of. The zeros are the spec's decision D10 (logs 2, 3, 8). -/
def Obligations.ResetValues : Prop :=
  State.reset.regs = ⟨0#8, 0#8, 0#8, 0#8, 0#8, 0#8, 0#8, 0#8⟩ ∧ State.reset.pc = 0#16 ∧ State.reset.sp = 0#16 ∧
  State.reset.ime = false ∧ State.reset.ie = 0#8 ∧ State.reset.iflag = 0#8 ∧ State.reset.halted = false ∧
  State.reset.next = 0 ∧ State.reset.fault = none ∧ State.reset.cycles = 0 ∧
  (∀ k, State.reset.hram.read k = 0#8 ∧ State.reset.ppu.vram.read k = 0#8 ∧ State.reset.ppu.oam.read k = 0#8 ∧
    State.reset.mem.read k = 0#8) ∧
  State.reset.timer = ⟨0#16, 0#8, 0#8, 0#8⟩ ∧
  (∀ r, State.reset.ppu.readReg r = 0#8) ∧ State.reset.ppu.lcdActive = false ∧ State.reset.ppu.dmaActive = false ∧
  State.reset.ppu.lcdOnCycle = 0 ∧ State.reset.ppu.dmaIndex = 0 ∧
  State.reset.ppu.nextFrame = List.replicate 144 none ∧ State.reset.bootActive = false ∧
  (∀ (p : Platform) (contents : Memory), (State.construct p contents).bootActive = p.hasBootRom) ∧
  State.reset.ppu.winY = 0 ∧ State.reset.ppu.currentImage.length = 144 ∧ (∀ r < 144, ∀ x < 160, (State.reset.ppu.currentImage.getD r []).getD x 3#2 = 0#2)

/-- The invariants hold after reset. -/
def Obligations.ResetIsSound : Prop := State.reset.Inv ∧ State.reset.ScheduleInv

/-- Every step keeps the invariant, whatever the platform: canonical memories, F's low nibble 0 (R24), the boundary
at most 5 ticks ahead (R393, R397), the frame's shape (R50), LY and the mode at 0 while the LCD is off (R43, R453),
and STAT[2] sound (R458). -/
def Obligations.StepKeepsTheInvariant : Prop :=
  ∀ s t : State, s.Inv → step s = .next t → t.Inv

/-- Every step keeps the display on its schedule: while the LCD runs, LY and the mode are those of the position in
the frame (R454, R455), and every line rendered so far fills its slot (R500). -/
def Obligations.StepKeepsTheSchedule : Prop :=
  ∀ s t : State, s.ScheduleInv → step s = .next t → t.ScheduleInv

end
end

