-- ==== Sys2Proof/Laws/Memory.lean ====
section
/-! SUPPORT. The laws of byte storage: a read after a write, the canonical form, the range of the keys. -/

namespace Sys2Proof.Machine

/-- A key below every listed key reads as unlisted. -/
theorem Memory.read_of_wfAbove : ∀ (m : Memory) (lo k : Nat), Memory.wfAbove m lo = true → k < lo →
    Memory.read m k = Memory.unlisted
  | [], _, _, _, _ => rfl
  | (k', v) :: rest, lo, k, h, hk => by
    simp only [Memory.wfAbove, Bool.and_eq_true, decide_eq_true_eq] at h
    obtain ⟨⟨h1, _⟩, h3⟩ := h
    have hne : k ≠ k' := by omega
    simp only [Memory.read, if_neg hne]
    exact Memory.read_of_wfAbove rest (k' + 1) k h3 (by omega)

/-- The bound of the canonical form may be lowered. -/
theorem Memory.wfAbove_mono {m : Memory} {lo lo' : Nat} (h : Memory.wfAbove m lo = true) (hle : lo' ≤ lo) :
    Memory.wfAbove m lo' = true := by
  cases m with
  | nil => rfl
  | cons c rest =>
    simp only [Memory.wfAbove, Bool.and_eq_true, decide_eq_true_eq] at h ⊢
    exact ⟨⟨by omega, h.1.2⟩, h.2⟩

/-- A write keeps the canonical form above a bound that its key meets. -/
theorem Memory.wfAbove_write : ∀ (m : Memory) (lo k : Nat) (v : Byte), Memory.wfAbove m lo = true → lo ≤ k →
    Memory.wfAbove (Memory.write m k v) lo = true
  | [], lo, k, v, _, hk => by
    simp only [Memory.write]
    split
    · rfl
    · rename_i hv
      simp [Memory.wfAbove, hk, hv]
  | (k', v') :: rest, lo, k, v, h, hk => by
    have h' := h
    simp only [Memory.wfAbove, Bool.and_eq_true, decide_eq_true_eq] at h
    obtain ⟨⟨h1, h2⟩, h3⟩ := h
    simp only [Memory.write]
    by_cases hlt : k < k'
    · rw [if_pos hlt]
      split
      · exact h'
      · rename_i hv
        simp only [Memory.wfAbove, Bool.and_eq_true, decide_eq_true_eq]
        exact ⟨⟨hk, hv⟩, ⟨by omega, h2⟩, h3⟩
    · rw [if_neg hlt]
      by_cases heq : k = k'
      · rw [if_pos heq]
        subst heq
        split
        · exact Memory.wfAbove_mono h3 (by omega)
        · rename_i hv
          simp only [Memory.wfAbove, Bool.and_eq_true, decide_eq_true_eq]
          exact ⟨⟨hk, hv⟩, h3⟩
      · rw [if_neg heq]
        simp only [Memory.wfAbove, Bool.and_eq_true, decide_eq_true_eq]
        exact ⟨⟨h1, h2⟩, Memory.wfAbove_write rest (k' + 1) k v h3 (by omega)⟩

/-- Every write keeps the canonical form. -/
theorem Memory.wf_write {m : Memory} (h : m.wf = true) (k : Nat) (v : Byte) : (m.write k v).wf = true :=
  Memory.wfAbove_write m 0 k v h (Nat.zero_le k)

/-- A read after a write, above a bound. -/
theorem Memory.read_write_above : ∀ (m : Memory) (lo k : Nat) (v : Byte) (j : Nat), Memory.wfAbove m lo = true →
    lo ≤ k → Memory.read (Memory.write m k v) j = if j = k then v else Memory.read m j
  | [], lo, k, v, j, _, _ => by
    simp only [Memory.write]
    split
    · rename_i hv
      simp [Memory.read, hv]
    · simp [Memory.read]
  | (k', v') :: rest, lo, k, v, j, h, hk => by
    have h' := h
    simp only [Memory.wfAbove, Bool.and_eq_true, decide_eq_true_eq] at h
    obtain ⟨⟨h1, h2⟩, h3⟩ := h
    simp only [Memory.write]
    by_cases hlt : k < k'
    · rw [if_pos hlt]
      have hk' : Memory.read ((k', v') :: rest) k = Memory.unlisted :=
        Memory.read_of_wfAbove _ (k + 1) k
          (by simp only [Memory.wfAbove, Bool.and_eq_true, decide_eq_true_eq]; exact ⟨⟨by omega, h2⟩, h3⟩)
          (by omega)
      split
      · rename_i hv
        by_cases hj : j = k
        · rw [if_pos hj, hj, hk', hv]
        · rw [if_neg hj]
      · by_cases hj : j = k
        · simp [Memory.read, hj]
        · simp [Memory.read, hj]
    · rw [if_neg hlt]
      by_cases heq : k = k'
      · subst heq
        rw [if_pos rfl]
        split
        · rename_i hv
          by_cases hj : j = k
          · rw [if_pos hj, hj, hv]
            exact Memory.read_of_wfAbove rest (k + 1) k h3 (by omega)
          · simp [Memory.read, hj]
        · by_cases hj : j = k
          · simp [Memory.read, hj]
          · simp [Memory.read, hj]
      · rw [if_neg heq]
        simp only [Memory.read]
        by_cases hj' : j = k'
        · have : j ≠ k := by omega
          simp [hj', Ne.symm heq]
        · rw [if_neg hj', if_neg hj']
          exact Memory.read_write_above rest (k' + 1) k v j h3 (by omega)

/-- A read after a write. -/
theorem Memory.read_write {m : Memory} (h : m.wf = true) (k : Nat) (v : Byte) (j : Nat) :
    (m.write k v).read j = if j = k then v else m.read j :=
  Memory.read_write_above m 0 k v j h (Nat.zero_le k)

/-- A write of a key in range keeps every key in range. -/
theorem Memory.within_write {lo hi : Nat} : ∀ (m : Memory) (k : Nat) (v : Byte),
    Memory.within m lo hi = true → lo ≤ k → k < hi → Memory.within (Memory.write m k v) lo hi = true
  | [], k, v, _, h1, h2 => by
    simp only [Memory.write]
    split
    · rfl
    · simp [Memory.within, h1, h2]
  | (k', v') :: rest, k, v, h, h1, h2 => by
    have h0 : (decide (lo ≤ k') && decide (k' < hi)) = true ∧ Memory.within rest lo hi = true := by
      simpa [Memory.within] using h
    have hk : (decide (lo ≤ k) && decide (k < hi)) = true := by simp [h1, h2]
    have cons : ∀ (c : Nat) (x : Byte) (r : Memory), (decide (lo ≤ c) && decide (c < hi)) = true →
        Memory.within r lo hi = true → Memory.within ((c, x) :: r) lo hi = true := by
      intro c x r hc hr
      simp only [Memory.within, List.all_cons, Bool.and_eq_true] at hc hr ⊢
      exact ⟨hc, hr⟩
    simp only [Memory.write]
    split
    · split
      · exact h
      · exact cons _ _ _ hk h
    · split
      · split
        · exact h0.2
        · exact cons _ _ _ hk h0.2
      · exact cons _ _ _ h0.1 (Memory.within_write rest k v h0.2 h1 h2)

/-- Storage in canonical form is determined by what it reads as: equal memories are equal data. -/
theorem Memory.ext_above : ∀ (m n : Memory) (lo : Nat), Memory.wfAbove m lo = true → Memory.wfAbove n lo = true →
    (∀ k, Memory.read m k = Memory.read n k) → m = n
  | [], [], _, _, _, _ => rfl
  | [], (k, v) :: rest, lo, _, h, e => by
    simp only [Memory.wfAbove, Bool.and_eq_true, decide_eq_true_eq] at h
    have := e k
    simp [Memory.read] at this
    exact absurd this.symm h.1.2
  | (k, v) :: rest, [], lo, h, _, e => by
    simp only [Memory.wfAbove, Bool.and_eq_true, decide_eq_true_eq] at h
    have := e k
    simp [Memory.read] at this
    exact absurd this h.1.2
  | (k, v) :: rest, (k', v') :: rest', lo, h, h', e => by
    have hm := h
    have hn := h'
    simp only [Memory.wfAbove, Bool.and_eq_true, decide_eq_true_eq] at h h'
    have hkk : k = k' := by
      rcases Nat.lt_trichotomy k k' with hlt | heq | hgt
      · have h1 := e k
        have h2 : Memory.read ((k', v') :: rest') k = Memory.unlisted :=
          Memory.read_of_wfAbove _ k' k
            (by simp only [Memory.wfAbove, Bool.and_eq_true, decide_eq_true_eq]
                exact ⟨⟨Nat.le_refl _, h'.1.2⟩, h'.2⟩) hlt
        rw [h2] at h1
        simp [Memory.read] at h1
        exact absurd h1 h.1.2
      · exact heq
      · have h1 := e k'
        have h2 : Memory.read ((k, v) :: rest) k' = Memory.unlisted :=
          Memory.read_of_wfAbove _ k k'
            (by simp only [Memory.wfAbove, Bool.and_eq_true, decide_eq_true_eq]
                exact ⟨⟨Nat.le_refl _, h.1.2⟩, h.2⟩) hgt
        rw [h2] at h1
        simp [Memory.read] at h1
        exact absurd h1.symm h'.1.2
    subst hkk
    have hv : v = v' := by simpa [Memory.read] using e k
    subst hv
    have : rest = rest' := by
      refine Memory.ext_above rest rest' (k + 1) h.2 h'.2 (fun j => ?_)
      by_cases hj : j = k
      · subst hj
        rw [Memory.read_of_wfAbove _ _ _ h.2 (by omega), Memory.read_of_wfAbove _ _ _ h'.2 (by omega)]
      · simpa [Memory.read, hj] using e j
    rw [this]

/-- Storage in canonical form is determined by what it reads as. -/
theorem Memory.ext_read {m n : Memory} (hm : m.wf = true) (hn : n.wf = true) (h : ∀ k, m.read k = n.read k) :
    m = n :=
  Memory.ext_above m n 0 hm hn h

end Sys2Proof.Machine
end

