-- ==== Sys2Proof/Laws/State.lean ====
section
/-! SUPPORT. One lemma per field per update of State: what each named update leaves in each field. -/

namespace Sys2Proof.Machine

section

variable (s : State) (r : R8) (v : Byte)

@[simp] theorem State.setR8_regs : (s.setR8 r v).regs = s.regs.set (regOf r) v := rfl
@[simp] theorem State.setR8_pc : (s.setR8 r v).pc = s.pc := rfl
@[simp] theorem State.setR8_sp : (s.setR8 r v).sp = s.sp := rfl
@[simp] theorem State.setR8_ime : (s.setR8 r v).ime = s.ime := rfl
@[simp] theorem State.setR8_ie : (s.setR8 r v).ie = s.ie := rfl
@[simp] theorem State.setR8_iflag : (s.setR8 r v).iflag = s.iflag := rfl
@[simp] theorem State.setR8_halted : (s.setR8 r v).halted = s.halted := rfl
@[simp] theorem State.setR8_next : (s.setR8 r v).next = s.next := rfl
@[simp] theorem State.setR8_fault : (s.setR8 r v).fault = s.fault := rfl
@[simp] theorem State.setR8_hram : (s.setR8 r v).hram = s.hram := rfl
@[simp] theorem State.setR8_timer : (s.setR8 r v).timer = s.timer := rfl
@[simp] theorem State.setR8_ppu : (s.setR8 r v).ppu = s.ppu := rfl
@[simp] theorem State.setR8_cycles : (s.setR8 r v).cycles = s.cycles := rfl
@[simp] theorem State.setR8_platform : (s.setR8 r v).platform = s.platform := rfl
@[simp] theorem State.setR8_mem : (s.setR8 r v).mem = s.mem := rfl
@[simp] theorem State.setR8_bootActive : (s.setR8 r v).bootActive = s.bootActive := rfl

end

section

variable (s : State) (v : Word)

@[simp] theorem State.setHl_regs : (s.setHl v).regs = { s.regs with h := highByte v, l := lowByte v } := rfl
@[simp] theorem State.setHl_pc : (s.setHl v).pc = s.pc := rfl
@[simp] theorem State.setHl_sp : (s.setHl v).sp = s.sp := rfl
@[simp] theorem State.setHl_ime : (s.setHl v).ime = s.ime := rfl
@[simp] theorem State.setHl_ie : (s.setHl v).ie = s.ie := rfl
@[simp] theorem State.setHl_iflag : (s.setHl v).iflag = s.iflag := rfl
@[simp] theorem State.setHl_halted : (s.setHl v).halted = s.halted := rfl
@[simp] theorem State.setHl_next : (s.setHl v).next = s.next := rfl
@[simp] theorem State.setHl_fault : (s.setHl v).fault = s.fault := rfl
@[simp] theorem State.setHl_hram : (s.setHl v).hram = s.hram := rfl
@[simp] theorem State.setHl_timer : (s.setHl v).timer = s.timer := rfl
@[simp] theorem State.setHl_ppu : (s.setHl v).ppu = s.ppu := rfl
@[simp] theorem State.setHl_cycles : (s.setHl v).cycles = s.cycles := rfl
@[simp] theorem State.setHl_platform : (s.setHl v).platform = s.platform := rfl
@[simp] theorem State.setHl_mem : (s.setHl v).mem = s.mem := rfl
@[simp] theorem State.setHl_bootActive : (s.setHl v).bootActive = s.bootActive := rfl

end

section

variable (s : State) (p : R16) (v : Word)

@[simp] theorem State.setR16_pc : (s.setR16 p v).pc = s.pc := by cases p <;> rfl
@[simp] theorem State.setR16_ime : (s.setR16 p v).ime = s.ime := by cases p <;> rfl
@[simp] theorem State.setR16_ie : (s.setR16 p v).ie = s.ie := by cases p <;> rfl
@[simp] theorem State.setR16_iflag : (s.setR16 p v).iflag = s.iflag := by cases p <;> rfl
@[simp] theorem State.setR16_halted : (s.setR16 p v).halted = s.halted := by cases p <;> rfl
@[simp] theorem State.setR16_next : (s.setR16 p v).next = s.next := by cases p <;> rfl
@[simp] theorem State.setR16_fault : (s.setR16 p v).fault = s.fault := by cases p <;> rfl
@[simp] theorem State.setR16_hram : (s.setR16 p v).hram = s.hram := by cases p <;> rfl
@[simp] theorem State.setR16_timer : (s.setR16 p v).timer = s.timer := by cases p <;> rfl
@[simp] theorem State.setR16_ppu : (s.setR16 p v).ppu = s.ppu := by cases p <;> rfl
@[simp] theorem State.setR16_cycles : (s.setR16 p v).cycles = s.cycles := by cases p <;> rfl
@[simp] theorem State.setR16_platform : (s.setR16 p v).platform = s.platform := by cases p <;> rfl
@[simp] theorem State.setR16_mem : (s.setR16 p v).mem = s.mem := by cases p <;> rfl
@[simp] theorem State.setR16_bootActive : (s.setR16 p v).bootActive = s.bootActive := by cases p <;> rfl

end

section

variable (s : State) (p : R16S) (v : Word)

@[simp] theorem State.setPair_pc : (s.setPair p v).pc = s.pc := by cases p <;> rfl
@[simp] theorem State.setPair_sp : (s.setPair p v).sp = s.sp := by cases p <;> rfl
@[simp] theorem State.setPair_ime : (s.setPair p v).ime = s.ime := by cases p <;> rfl
@[simp] theorem State.setPair_ie : (s.setPair p v).ie = s.ie := by cases p <;> rfl
@[simp] theorem State.setPair_iflag : (s.setPair p v).iflag = s.iflag := by cases p <;> rfl
@[simp] theorem State.setPair_halted : (s.setPair p v).halted = s.halted := by cases p <;> rfl
@[simp] theorem State.setPair_next : (s.setPair p v).next = s.next := by cases p <;> rfl
@[simp] theorem State.setPair_fault : (s.setPair p v).fault = s.fault := by cases p <;> rfl
@[simp] theorem State.setPair_hram : (s.setPair p v).hram = s.hram := by cases p <;> rfl
@[simp] theorem State.setPair_timer : (s.setPair p v).timer = s.timer := by cases p <;> rfl
@[simp] theorem State.setPair_ppu : (s.setPair p v).ppu = s.ppu := by cases p <;> rfl
@[simp] theorem State.setPair_cycles : (s.setPair p v).cycles = s.cycles := by cases p <;> rfl
@[simp] theorem State.setPair_platform : (s.setPair p v).platform = s.platform := by cases p <;> rfl
@[simp] theorem State.setPair_mem : (s.setPair p v).mem = s.mem := by cases p <;> rfl
@[simp] theorem State.setPair_bootActive : (s.setPair p v).bootActive = s.bootActive := by cases p <;> rfl

end

section

variable {w : Nat} (s : State) (ρ : Routing) (x : AluResult w)

@[simp] theorem State.route_regs : (s.route ρ x).regs = { s.regs with f := ρ.apply x s.regs.f } := rfl
@[simp] theorem State.route_pc : (s.route ρ x).pc = s.pc := rfl
@[simp] theorem State.route_sp : (s.route ρ x).sp = s.sp := rfl
@[simp] theorem State.route_ime : (s.route ρ x).ime = s.ime := rfl
@[simp] theorem State.route_ie : (s.route ρ x).ie = s.ie := rfl
@[simp] theorem State.route_iflag : (s.route ρ x).iflag = s.iflag := rfl
@[simp] theorem State.route_halted : (s.route ρ x).halted = s.halted := rfl
@[simp] theorem State.route_next : (s.route ρ x).next = s.next := rfl
@[simp] theorem State.route_fault : (s.route ρ x).fault = s.fault := rfl
@[simp] theorem State.route_hram : (s.route ρ x).hram = s.hram := rfl
@[simp] theorem State.route_timer : (s.route ρ x).timer = s.timer := rfl
@[simp] theorem State.route_ppu : (s.route ρ x).ppu = s.ppu := rfl
@[simp] theorem State.route_cycles : (s.route ρ x).cycles = s.cycles := rfl
@[simp] theorem State.route_platform : (s.route ρ x).platform = s.platform := rfl
@[simp] theorem State.route_mem : (s.route ρ x).mem = s.mem := rfl
@[simp] theorem State.route_bootActive : (s.route ρ x).bootActive = s.bootActive := rfl

end

section

variable (s0 s : State) (len cost : Nat)

@[simp] theorem State.retire_regs : (s0.retire len cost s).regs = s.regs := rfl
@[simp] theorem State.retire_pc : (s0.retire len cost s).pc = s0.pc + BitVec.ofNat 16 len := rfl
@[simp] theorem State.retire_sp : (s0.retire len cost s).sp = s.sp := rfl
@[simp] theorem State.retire_ime : (s0.retire len cost s).ime = s.ime := rfl
@[simp] theorem State.retire_ie : (s0.retire len cost s).ie = s.ie := rfl
@[simp] theorem State.retire_iflag : (s0.retire len cost s).iflag = s.iflag := rfl
@[simp] theorem State.retire_halted : (s0.retire len cost s).halted = s.halted := rfl
@[simp] theorem State.retire_next : (s0.retire len cost s).next = s0.cycles + cost := rfl
@[simp] theorem State.retire_fault : (s0.retire len cost s).fault = s.fault := rfl
@[simp] theorem State.retire_hram : (s0.retire len cost s).hram = s.hram := rfl
@[simp] theorem State.retire_timer : (s0.retire len cost s).timer = s.timer := rfl
@[simp] theorem State.retire_ppu : (s0.retire len cost s).ppu = s.ppu := rfl
@[simp] theorem State.retire_cycles : (s0.retire len cost s).cycles = s.cycles := rfl
@[simp] theorem State.retire_platform : (s0.retire len cost s).platform = s.platform := rfl
@[simp] theorem State.retire_mem : (s0.retire len cost s).mem = s.mem := rfl
@[simp] theorem State.retire_bootActive : (s0.retire len cost s).bootActive = s.bootActive := rfl

end

section

variable (s0 s : State) (target : Word) (cost : Nat)

@[simp] theorem State.transfer_regs : (s0.transfer target cost s).regs = s.regs := rfl
@[simp] theorem State.transfer_pc : (s0.transfer target cost s).pc = target := rfl
@[simp] theorem State.transfer_sp : (s0.transfer target cost s).sp = s.sp := rfl
@[simp] theorem State.transfer_ime : (s0.transfer target cost s).ime = s.ime := rfl
@[simp] theorem State.transfer_ie : (s0.transfer target cost s).ie = s.ie := rfl
@[simp] theorem State.transfer_iflag : (s0.transfer target cost s).iflag = s.iflag := rfl
@[simp] theorem State.transfer_halted : (s0.transfer target cost s).halted = s.halted := rfl
@[simp] theorem State.transfer_next : (s0.transfer target cost s).next = s0.cycles + cost := rfl
@[simp] theorem State.transfer_fault : (s0.transfer target cost s).fault = s.fault := rfl
@[simp] theorem State.transfer_hram : (s0.transfer target cost s).hram = s.hram := rfl
@[simp] theorem State.transfer_timer : (s0.transfer target cost s).timer = s.timer := rfl
@[simp] theorem State.transfer_ppu : (s0.transfer target cost s).ppu = s.ppu := rfl
@[simp] theorem State.transfer_cycles : (s0.transfer target cost s).cycles = s.cycles := rfl
@[simp] theorem State.transfer_platform : (s0.transfer target cost s).platform = s.platform := rfl
@[simp] theorem State.transfer_mem : (s0.transfer target cost s).mem = s.mem := rfl
@[simp] theorem State.transfer_bootActive : (s0.transfer target cost s).bootActive = s.bootActive := rfl

end

section

variable (s : State)

@[simp] theorem dropWord_regs : (dropWord s).regs = s.regs := rfl
@[simp] theorem dropWord_pc : (dropWord s).pc = s.pc := rfl
@[simp] theorem dropWord_sp : (dropWord s).sp = s.sp + 2#16 := rfl
@[simp] theorem dropWord_ime : (dropWord s).ime = s.ime := rfl
@[simp] theorem dropWord_ie : (dropWord s).ie = s.ie := rfl
@[simp] theorem dropWord_iflag : (dropWord s).iflag = s.iflag := rfl
@[simp] theorem dropWord_halted : (dropWord s).halted = s.halted := rfl
@[simp] theorem dropWord_next : (dropWord s).next = s.next := rfl
@[simp] theorem dropWord_fault : (dropWord s).fault = s.fault := rfl
@[simp] theorem dropWord_hram : (dropWord s).hram = s.hram := rfl
@[simp] theorem dropWord_timer : (dropWord s).timer = s.timer := rfl
@[simp] theorem dropWord_ppu : (dropWord s).ppu = s.ppu := rfl
@[simp] theorem dropWord_cycles : (dropWord s).cycles = s.cycles := rfl
@[simp] theorem dropWord_platform : (dropWord s).platform = s.platform := rfl
@[simp] theorem dropWord_mem : (dropWord s).mem = s.mem := rfl
@[simp] theorem dropWord_bootActive : (dropWord s).bootActive = s.bootActive := rfl

end

section

variable (i : Line) (s : State)

@[simp] theorem acknowledge_regs : (acknowledge i s).regs = s.regs := rfl
@[simp] theorem acknowledge_pc : (acknowledge i s).pc = s.pc := rfl
@[simp] theorem acknowledge_sp : (acknowledge i s).sp = s.sp := rfl
@[simp] theorem acknowledge_ime : (acknowledge i s).ime = false := rfl
@[simp] theorem acknowledge_ie : (acknowledge i s).ie = s.ie := rfl
@[simp] theorem acknowledge_iflag : (acknowledge i s).iflag = s.iflag &&& ~~~ mask 8 i.index := rfl
@[simp] theorem acknowledge_halted : (acknowledge i s).halted = s.halted := rfl
@[simp] theorem acknowledge_next : (acknowledge i s).next = s.next := rfl
@[simp] theorem acknowledge_fault : (acknowledge i s).fault = s.fault := rfl
@[simp] theorem acknowledge_hram : (acknowledge i s).hram = s.hram := rfl
@[simp] theorem acknowledge_timer : (acknowledge i s).timer = s.timer := rfl
@[simp] theorem acknowledge_ppu : (acknowledge i s).ppu = s.ppu := rfl
@[simp] theorem acknowledge_cycles : (acknowledge i s).cycles = s.cycles := rfl
@[simp] theorem acknowledge_platform : (acknowledge i s).platform = s.platform := rfl
@[simp] theorem acknowledge_mem : (acknowledge i s).mem = s.mem := rfl
@[simp] theorem acknowledge_bootActive : (acknowledge i s).bootActive = s.bootActive := rfl

end

section

variable (i : Line) (s : State)

@[simp] theorem requestInterrupt_regs : (requestInterrupt i s).regs = s.regs := rfl
@[simp] theorem requestInterrupt_pc : (requestInterrupt i s).pc = s.pc := rfl
@[simp] theorem requestInterrupt_sp : (requestInterrupt i s).sp = s.sp := rfl
@[simp] theorem requestInterrupt_ime : (requestInterrupt i s).ime = s.ime := rfl
@[simp] theorem requestInterrupt_ie : (requestInterrupt i s).ie = s.ie := rfl
@[simp] theorem requestInterrupt_iflag : (requestInterrupt i s).iflag = s.iflag ||| mask 8 i.index := rfl
@[simp] theorem requestInterrupt_halted : (requestInterrupt i s).halted = s.halted := rfl
@[simp] theorem requestInterrupt_next : (requestInterrupt i s).next = s.next := rfl
@[simp] theorem requestInterrupt_fault : (requestInterrupt i s).fault = s.fault := rfl
@[simp] theorem requestInterrupt_hram : (requestInterrupt i s).hram = s.hram := rfl
@[simp] theorem requestInterrupt_timer : (requestInterrupt i s).timer = s.timer := rfl
@[simp] theorem requestInterrupt_ppu : (requestInterrupt i s).ppu = s.ppu := rfl
@[simp] theorem requestInterrupt_cycles : (requestInterrupt i s).cycles = s.cycles := rfl
@[simp] theorem requestInterrupt_platform : (requestInterrupt i s).platform = s.platform := rfl
@[simp] theorem requestInterrupt_mem : (requestInterrupt i s).mem = s.mem := rfl
@[simp] theorem requestInterrupt_bootActive : (requestInterrupt i s).bootActive = s.bootActive := rfl

end

section

variable (s : State) (i : Ind) (a : Word)

@[simp] theorem State.indStep_pc : (s.indStep i a).pc = s.pc := by cases i <;> rfl
@[simp] theorem State.indStep_sp : (s.indStep i a).sp = s.sp := by cases i <;> rfl
@[simp] theorem State.indStep_ime : (s.indStep i a).ime = s.ime := by cases i <;> rfl
@[simp] theorem State.indStep_ie : (s.indStep i a).ie = s.ie := by cases i <;> rfl
@[simp] theorem State.indStep_iflag : (s.indStep i a).iflag = s.iflag := by cases i <;> rfl
@[simp] theorem State.indStep_halted : (s.indStep i a).halted = s.halted := by cases i <;> rfl
@[simp] theorem State.indStep_next : (s.indStep i a).next = s.next := by cases i <;> rfl
@[simp] theorem State.indStep_fault : (s.indStep i a).fault = s.fault := by cases i <;> rfl
@[simp] theorem State.indStep_hram : (s.indStep i a).hram = s.hram := by cases i <;> rfl
@[simp] theorem State.indStep_timer : (s.indStep i a).timer = s.timer := by cases i <;> rfl
@[simp] theorem State.indStep_ppu : (s.indStep i a).ppu = s.ppu := by cases i <;> rfl
@[simp] theorem State.indStep_cycles : (s.indStep i a).cycles = s.cycles := by cases i <;> rfl
@[simp] theorem State.indStep_platform : (s.indStep i a).platform = s.platform := by cases i <;> rfl
@[simp] theorem State.indStep_mem : (s.indStep i a).mem = s.mem := by cases i <;> rfl
@[simp] theorem State.indStep_bootActive : (s.indStep i a).bootActive = s.bootActive := by cases i <;> rfl

end

section

variable (f : Fault) (s : State)

@[simp] theorem State.faulted_regs : (s.faulted f).regs = s.regs := rfl
@[simp] theorem State.faulted_pc : (s.faulted f).pc = s.pc := rfl
@[simp] theorem State.faulted_sp : (s.faulted f).sp = s.sp := rfl
@[simp] theorem State.faulted_ime : (s.faulted f).ime = s.ime := rfl
@[simp] theorem State.faulted_ie : (s.faulted f).ie = s.ie := rfl
@[simp] theorem State.faulted_iflag : (s.faulted f).iflag = s.iflag := rfl
@[simp] theorem State.faulted_halted : (s.faulted f).halted = s.halted := rfl
@[simp] theorem State.faulted_next : (s.faulted f).next = s.next := rfl
@[simp] theorem State.faulted_fault : (s.faulted f).fault = some f := rfl
@[simp] theorem State.faulted_hram : (s.faulted f).hram = s.hram := rfl
@[simp] theorem State.faulted_timer : (s.faulted f).timer = s.timer := rfl
@[simp] theorem State.faulted_ppu : (s.faulted f).ppu = s.ppu := rfl
@[simp] theorem State.faulted_cycles : (s.faulted f).cycles = s.cycles := rfl
@[simp] theorem State.faulted_platform : (s.faulted f).platform = s.platform := rfl
@[simp] theorem State.faulted_mem : (s.faulted f).mem = s.mem := rfl
@[simp] theorem State.faulted_bootActive : (s.faulted f).bootActive = s.bootActive := rfl

end

/-- A register read after a write of a register. -/
@[simp] theorem Regs.get_set (g : Regs) (t u : Reg) (v : Byte) :
    (g.set t v).get u = if u = t then v else g.get u := by
  cases t <;> cases u <;> rfl

/-- Writing a register operand leaves F. -/
@[simp] theorem Regs.set_regOf_f (g : Regs) (r : R8) (v : Byte) : (g.set (regOf r) v).f = g.f := by
  cases r <;> rfl

/-- R24: the low nibble of a routed F is 0. -/
@[simp] theorem packFlags_low (z n h c : Bool) : packFlags z n h c &&& 0x0F#8 = 0#8 := by
  cases z <;> cases n <;> cases h <;> cases c <;> rfl

/-- R24: the low nibble of a routed F is 0. -/
@[simp] theorem Routing.apply_low {w : Nat} (ρ : Routing) (r : AluResult w) (f : Byte) :
    ρ.apply r f &&& 0x0F#8 = 0#8 := packFlags_low _ _ _ _

/-- R24: Z is bit 7. -/
@[simp] theorem packFlags_z (z n h c : Bool) : (packFlags z n h c).getLsbD 7 = z := by
  cases z <;> cases n <;> cases h <;> cases c <;> rfl

/-- R24: N is bit 6. -/
@[simp] theorem packFlags_n (z n h c : Bool) : (packFlags z n h c).getLsbD 6 = n := by
  cases z <;> cases n <;> cases h <;> cases c <;> rfl

/-- R24: H is bit 5. -/
@[simp] theorem packFlags_h (z n h c : Bool) : (packFlags z n h c).getLsbD 5 = h := by
  cases z <;> cases n <;> cases h <;> cases c <;> rfl

/-- R24: C is bit 4. -/
@[simp] theorem packFlags_c (z n h c : Bool) : (packFlags z n h c).getLsbD 4 = c := by
  cases z <;> cases n <;> cases h <;> cases c <;> rfl

/-- R8, R169: a word's halves. -/
@[simp] theorem highByte_make16 (hi lo : Byte) : highByte (make16 hi lo) = hi := by
  simp only [highByte, make16]
  ext i h
  have e := BitVec.getLsbD_append (x := hi) (y := lo) (i := 8 + i)
  simpa [BitVec.getLsbD_eq_getElem, h] using e

/-- R8, R169: a word's halves. -/
@[simp] theorem lowByte_make16 (hi lo : Byte) : lowByte (make16 hi lo) = lo := by
  simp only [lowByte, make16]
  ext i h
  have e := BitVec.getLsbD_append (x := hi) (y := lo) (i := i)
  simpa [BitVec.getLsbD_eq_getElem, h] using e

/-- R8, R169: a word from its halves. -/
@[simp] theorem make16_bytes (v : Word) : make16 (highByte v) (lowByte v) = v := by
  simp only [highByte, lowByte, make16]
  ext i hi'
  simp only [BitVec.getElem_append, BitVec.getElem_extractLsb']
  split
  · simp [BitVec.getLsbD_eq_getElem, hi']
  · rename_i h
    have : 8 + (i - 8) = i := by omega
    simp [this, BitVec.getLsbD_eq_getElem, hi']

end Sys2Proof.Machine
end

