-- ==== Sys2Proof/Laws/Bus.lean ====
section
/-! SUPPORT. What a bus write can do. `Component.write` reaches IE, IF, high RAM, the timer, the picture unit, the
platform's storage and the boot bit, and nothing else; a property that every component keeps, the bus keeps. -/

namespace Sys2Proof.Machine

/-- A bus write is a chain of component writes: what each keeps, the bus keeps. -/
theorem busWrite_keeps (P : State → Prop) (a : Word) (d : Byte)
    (h : ∀ (comp : Component) (t : State), P t → P (comp.write a d t)) (s : State) (hs : P s) :
    P (s.busWrite a d) := by
  unfold State.busWrite
  generalize s.platform.components = cs
  induction cs generalizing s with
  | nil => exact hs
  | cons c rest ih => exact ih (c.write a d s) (h c s hs)

theorem State.sameCpu_refl (s : State) : s.sameCpu s := ⟨rfl, rfl, rfl, rfl, rfl, rfl, rfl, rfl, rfl⟩

theorem State.sameCpu_trans {s t u : State} (h1 : s.sameCpu t) (h2 : t.sameCpu u) : s.sameCpu u := by
  obtain ⟨a1, a2, a3, a4, a5, a6, a7, a8, a9⟩ := h1
  obtain ⟨b1, b2, b3, b4, b5, b6, b7, b8, b9⟩ := h2
  exact ⟨b1.trans a1, b2.trans a2, b3.trans a3, b4.trans a4, b5.trans a5, b6.trans a6, b7.trans a7,
    b8.trans a8, b9.trans a9⟩

theorem requestInterrupt_sameCpu (i : Line) (s : State) : s.sameCpu (requestInterrupt i s) :=
  ⟨rfl, rfl, rfl, rfl, rfl, rfl, rfl, rfl, rfl⟩

theorem timaIncrement_sameCpu (s : State) : s.sameCpu (timaIncrement s) := by
  unfold timaIncrement
  split <;> exact ⟨rfl, rfl, rfl, rfl, rfl, rfl, rfl, rfl, rfl⟩

theorem timerEdge_sameCpu (b : Bool) (s : State) : s.sameCpu (timerEdge b s) := by
  unfold timerEdge
  split
  · exact timaIncrement_sameCpu s
  · exact s.sameCpu_refl

theorem timerUpdate_sameCpu (change : Timer → Timer) (s : State) : s.sameCpu (timerUpdate change s) :=
  timerEdge_sameCpu _ { s with timer := change s.timer }

theorem coincidence_sameCpu (s : State) : s.sameCpu (coincidence s) := by
  unfold coincidence
  split
  · split <;> exact ⟨rfl, rfl, rfl, rfl, rfl, rfl, rfl, rfl, rfl⟩
  · exact ⟨rfl, rfl, rfl, rfl, rfl, rfl, rfl, rfl, rfl⟩

theorem lcdOff_sameCpu (s : State) : s.sameCpu (lcdOff s) :=
  coincidence_sameCpu { s with ppu := { s.ppu with
    lcdActive := false, stat := statWithMode s.ppu.stat 0#8, ly := 0#8 } }

theorem writePpuReg_sameCpu (r : PpuReg) (d : Byte) (s : State) : s.sameCpu (writePpuReg r d s) := by
  cases r
  case LCDC =>
    unfold writePpuReg
    dsimp only
    split
    · exact lcdOff_sameCpu { s with ppu := { s.ppu with lcdc := d } }
    · exact ⟨rfl, rfl, rfl, rfl, rfl, rfl, rfl, rfl, rfl⟩
  case LYC => exact coincidence_sameCpu { s with ppu := { s.ppu with lyc := d } }
  all_goals exact ⟨rfl, rfl, rfl, rfl, rfl, rfl, rfl, rfl, rfl⟩

/-- A component's write leaves the CPU's own state, the tick and the platform. -/
theorem Component.write_sameCpu (comp : Component) (a : Word) (d : Byte) (s : State) :
    s.sameCpu (comp.write a d s) := by
  cases comp
  case cpu =>
    unfold Component.write
    dsimp only
    repeat' split
    all_goals exact ⟨rfl, rfl, rfl, rfl, rfl, rfl, rfl, rfl, rfl⟩
  case timer =>
    unfold Component.write
    dsimp only
    split
    · exact timerUpdate_sameCpu _ s
    split
    · exact ⟨rfl, rfl, rfl, rfl, rfl, rfl, rfl, rfl, rfl⟩
    split
    · exact ⟨rfl, rfl, rfl, rfl, rfl, rfl, rfl, rfl, rfl⟩
    split
    · exact timerUpdate_sameCpu _ s
    · exact s.sameCpu_refl
  case ppu =>
    unfold Component.write
    dsimp only
    split
    · exact ⟨rfl, rfl, rfl, rfl, rfl, rfl, rfl, rfl, rfl⟩
    split
    · exact ⟨rfl, rfl, rfl, rfl, rfl, rfl, rfl, rfl, rfl⟩
    split
    · exact writePpuReg_sameCpu _ d s
    · exact s.sameCpu_refl
  case ram r =>
    unfold Component.write
    dsimp only
    split <;> exact ⟨rfl, rfl, rfl, rfl, rfl, rfl, rfl, rfl, rfl⟩
  case rom r => exact s.sameCpu_refl
  case bootRom base =>
    unfold Component.write
    dsimp only
    split <;> exact ⟨rfl, rfl, rfl, rfl, rfl, rfl, rfl, rfl, rfl⟩

/-- A bus write leaves the CPU's own state, the tick and the platform. -/
theorem busWrite_sameCpu (s : State) (a : Word) (d : Byte) : s.sameCpu (s.busWrite a d) :=
  busWrite_keeps (fun t => s.sameCpu t) a d
    (fun comp t h => State.sameCpu_trans h (comp.write_sameCpu a d t)) s s.sameCpu_refl

@[simp] theorem busWrite_regs (s : State) (a : Word) (d : Byte) : (s.busWrite a d).regs = s.regs :=
  (busWrite_sameCpu s a d).1
@[simp] theorem busWrite_pc (s : State) (a : Word) (d : Byte) : (s.busWrite a d).pc = s.pc :=
  (busWrite_sameCpu s a d).2.1
@[simp] theorem busWrite_sp (s : State) (a : Word) (d : Byte) : (s.busWrite a d).sp = s.sp :=
  (busWrite_sameCpu s a d).2.2.1
@[simp] theorem busWrite_ime (s : State) (a : Word) (d : Byte) : (s.busWrite a d).ime = s.ime :=
  (busWrite_sameCpu s a d).2.2.2.1
@[simp] theorem busWrite_halted (s : State) (a : Word) (d : Byte) : (s.busWrite a d).halted = s.halted :=
  (busWrite_sameCpu s a d).2.2.2.2.1
@[simp] theorem busWrite_next (s : State) (a : Word) (d : Byte) : (s.busWrite a d).next = s.next :=
  (busWrite_sameCpu s a d).2.2.2.2.2.1
@[simp] theorem busWrite_fault (s : State) (a : Word) (d : Byte) : (s.busWrite a d).fault = s.fault :=
  (busWrite_sameCpu s a d).2.2.2.2.2.2.1
@[simp] theorem busWrite_cycles (s : State) (a : Word) (d : Byte) : (s.busWrite a d).cycles = s.cycles :=
  (busWrite_sameCpu s a d).2.2.2.2.2.2.2.1
@[simp] theorem busWrite_platform (s : State) (a : Word) (d : Byte) : (s.busWrite a d).platform = s.platform :=
  (busWrite_sameCpu s a d).2.2.2.2.2.2.2.2

@[simp] theorem coincidence_bootActive (s : State) : (coincidence s).bootActive = s.bootActive := by
  unfold coincidence
  dsimp only
  split_ifs <;> rfl

@[simp] theorem timerUpdate_bootActive (change : Timer → Timer) (s : State) :
    (timerUpdate change s).bootActive = s.bootActive := by
  unfold timerUpdate timerEdge timaIncrement
  dsimp only
  split_ifs <;> rfl

/-- R86: a component's write changes the boot bit only where the boot shadow takes a write to its register. -/
theorem Component.write_bootActive (comp : Component) (a : Word) (d : Byte) (s : State) :
    (comp.write a d s).bootActive = (s.bootActive && !(comp.isBootRom && decide (a = addrBoot))) := by
  cases comp <;> simp only [Component.write, Component.isBootRom]
  case bootRom base => split_ifs with h <;> simp [h]
  case timer => split_ifs <;> simp [writeDiv, writeTima, writeTma, writeTac]
  case ppu =>
    split_ifs
    · simp
    · simp
    · split
      · rename_i r _; cases r <;> simp [writePpuReg, dmaStart, lcdOff]
        split_ifs
        · exact coincidence_bootActive _
        · rfl
      · simp
  case rom r => simp
  all_goals split_ifs <;> simp

/-- R74, R86: what a bus write does to the boot bit. -/
theorem busWrite_bootActive (s : State) (a : Word) (d : Byte) :
    (s.busWrite a d).bootActive = (s.bootActive && !(s.platform.hasBootRom && decide (a = addrBoot))) := by
  unfold State.busWrite Platform.hasBootRom
  generalize s.platform.components = cs
  induction cs generalizing s with
  | nil => simp
  | cons c rest ih =>
    rw [List.foldl_cons, ih, Component.write_bootActive, List.any_cons]
    cases s.bootActive <;> cases c.isBootRom <;> by_cases h : a = addrBoot <;> simp [h]

/-- R86: once boot mode has ended, no write starts it again. -/
theorem busWrite_bootEnded (s : State) (a : Word) (d : Byte) (h : s.bootActive = false) :
    (s.busWrite a d).bootActive = false := by simp [busWrite_bootActive, h]

/-- A 16-bit bus write leaves the CPU's own state, the tick and the platform. -/
theorem busWrite16_sameCpu (s : State) (a v : Word) : s.sameCpu (s.busWrite16 a v) :=
  State.sameCpu_trans (busWrite_sameCpu s a _) (busWrite_sameCpu _ _ _)

@[simp] theorem busWrite16_regs (s : State) (a v : Word) : (s.busWrite16 a v).regs = s.regs :=
  (busWrite16_sameCpu s a v).1
@[simp] theorem busWrite16_pc (s : State) (a v : Word) : (s.busWrite16 a v).pc = s.pc :=
  (busWrite16_sameCpu s a v).2.1
@[simp] theorem busWrite16_sp (s : State) (a v : Word) : (s.busWrite16 a v).sp = s.sp :=
  (busWrite16_sameCpu s a v).2.2.1
@[simp] theorem busWrite16_ime (s : State) (a v : Word) : (s.busWrite16 a v).ime = s.ime :=
  (busWrite16_sameCpu s a v).2.2.2.1
@[simp] theorem busWrite16_halted (s : State) (a v : Word) : (s.busWrite16 a v).halted = s.halted :=
  (busWrite16_sameCpu s a v).2.2.2.2.1
@[simp] theorem busWrite16_next (s : State) (a v : Word) : (s.busWrite16 a v).next = s.next :=
  (busWrite16_sameCpu s a v).2.2.2.2.2.1
@[simp] theorem busWrite16_fault (s : State) (a v : Word) : (s.busWrite16 a v).fault = s.fault :=
  (busWrite16_sameCpu s a v).2.2.2.2.2.2.1
@[simp] theorem busWrite16_cycles (s : State) (a v : Word) : (s.busWrite16 a v).cycles = s.cycles :=
  (busWrite16_sameCpu s a v).2.2.2.2.2.2.2.1
@[simp] theorem busWrite16_platform (s : State) (a v : Word) :
    (s.busWrite16 a v).platform = s.platform :=
  (busWrite16_sameCpu s a v).2.2.2.2.2.2.2.2

@[simp] theorem push16_regs (v : Word) (s : State) : (push16 v s).regs = s.regs := by simp [push16]
@[simp] theorem push16_pc (v : Word) (s : State) : (push16 v s).pc = s.pc := by simp [push16]
@[simp] theorem push16_sp (v : Word) (s : State) : (push16 v s).sp = s.sp - 2#16 := by simp [push16]
@[simp] theorem push16_ime (v : Word) (s : State) : (push16 v s).ime = s.ime := by simp [push16]
@[simp] theorem push16_halted (v : Word) (s : State) : (push16 v s).halted = s.halted := by simp [push16]
@[simp] theorem push16_next (v : Word) (s : State) : (push16 v s).next = s.next := by simp [push16]
@[simp] theorem push16_fault (v : Word) (s : State) : (push16 v s).fault = s.fault := by simp [push16]
@[simp] theorem push16_cycles (v : Word) (s : State) : (push16 v s).cycles = s.cycles := by simp [push16]
@[simp] theorem push16_platform (v : Word) (s : State) : (push16 v s).platform = s.platform := by
  simp [push16]

/-- A bus read depends on the state only through what a bus write can reach, and the platform. -/
theorem busRead_congr {s t : State} (h : s.sameBus t) (hp : t.platform = s.platform) (a : Word) :
    t.busRead a = s.busRead a := by
  obtain ⟨h1, h2, h3, h4, h5, h6, h7⟩ := h
  unfold State.busRead
  rw [hp]
  congr 1
  congr 1
  funext comp
  cases comp <;> simp [Component.read, h1, h2, h3, h4, h5, h6, h7]

theorem State.sameBus_refl (s : State) : s.sameBus s := ⟨rfl, rfl, rfl, rfl, rfl, rfl, rfl⟩

end Sys2Proof.Machine
end

