-- ==== Sys2Proof/Laws/Devices.lean ====
section
/-! SUPPORT. What a bus write and the device steps keep of the devices: the shape of the memories and of the frame,
the LCD's rules, the schedule. -/

namespace Sys2Proof.Machine

/-- The parts of the invariant that speak of the devices and of storage. -/
def State.DevOk (s : State) : Prop :=
  s.memoriesCanonical ∧ s.memoriesInRange ∧ s.dmaInRange ∧ s.frameShape ∧ s.lcdOffQuiet ∧
  (s.ppu.lcdActive = true → s.ppu.lcdc.getLsbD 7 = true) ∧ s.coincidenceSound

/-- The schedule's parts at a position `p` of the frame. -/
def State.SchedAt (p : Nat) (s : State) : Prop :=
  s.ppu.lcdActive = true →
    s.ppu.ly = BitVec.ofNat 8 (p / 114) ∧ s.ppu.stat &&& 3#8 = modeAt p ∧
    ∀ r < linesRendered p, (s.ppu.nextFrame.getD r none).isSome = true

@[simp] theorem requestInterrupt_mem_wf (i : Line) (s : State) : (requestInterrupt i s).mem.wf = s.mem.wf := rfl

theorem timaIncrement_ppu (s : State) : (timaIncrement s).ppu = s.ppu := by
  unfold timaIncrement
  split <;> rfl

theorem timaIncrement_mem (s : State) : (timaIncrement s).mem = s.mem ∧ (timaIncrement s).hram = s.hram := by
  unfold timaIncrement
  split <;> exact ⟨rfl, rfl⟩

theorem timerEdge_ppu (b : Bool) (s : State) : (timerEdge b s).ppu = s.ppu := by
  unfold timerEdge
  split
  · exact timaIncrement_ppu s
  · rfl

theorem timerEdge_mem (b : Bool) (s : State) : (timerEdge b s).mem = s.mem ∧ (timerEdge b s).hram = s.hram := by
  unfold timerEdge
  split
  · exact timaIncrement_mem s
  · exact ⟨rfl, rfl⟩

/-- A timer update leaves the picture unit. -/
@[simp] theorem timerUpdate_ppu (change : Timer → Timer) (s : State) : (timerUpdate change s).ppu = s.ppu :=
  timerEdge_ppu _ { s with timer := change s.timer }

/-- A timer update leaves the platform's storage. -/
@[simp] theorem timerUpdate_mem (change : Timer → Timer) (s : State) : (timerUpdate change s).mem = s.mem :=
  (timerEdge_mem _ { s with timer := change s.timer }).1

/-- A timer update leaves high RAM. -/
@[simp] theorem timerUpdate_hram (change : Timer → Timer) (s : State) : (timerUpdate change s).hram = s.hram :=
  (timerEdge_mem _ { s with timer := change s.timer }).2

/-- The coincidence check changes STAT[2] of the picture unit and nothing else of it. -/
@[simp] theorem coincidence_ppu (s : State) :
    (coincidence s).ppu = { s.ppu with stat := setBit s.ppu.stat 2 (decide (s.ppu.ly = s.ppu.lyc)) } := by
  unfold coincidence
  split
  · rename_i h
    split <;> simp [h]
  · rename_i h
    simp [h]

@[simp] theorem coincidence_mem (s : State) : (coincidence s).mem = s.mem := by
  unfold coincidence
  split
  · split <;> rfl
  · rfl

@[simp] theorem coincidence_hram (s : State) : (coincidence s).hram = s.hram := by
  unfold coincidence
  split
  · split <;> rfl
  · rfl

/-- `SetMode` changes STAT[1:0] of the picture unit and nothing else of it. -/
@[simp] theorem setMode_ppu (m : Nat) (s : State) :
    (setMode m s).ppu = { s.ppu with stat := statWithMode s.ppu.stat (BitVec.ofNat 8 m) } := by
  unfold setMode
  dsimp only
  split <;> rfl

@[simp] theorem setMode_mem (m : Nat) (s : State) : (setMode m s).mem = s.mem := by
  unfold setMode
  dsimp only
  split <;> rfl

@[simp] theorem setMode_hram (m : Nat) (s : State) : (setMode m s).hram = s.hram := by
  unfold setMode
  dsimp only
  split <;> rfl

/-- The mode bits and the coincidence bit of STAT do not overlap. -/
theorem setBit2_mode (b : Byte) (v : Bool) : setBit b 2 v &&& 3#8 = b &&& 3#8 := by
  revert b v
  decide

theorem setBit2_get (b : Byte) (v : Bool) : (setBit b 2 v).getLsbD 2 = v := by
  revert b v
  decide

theorem statWithMode_mode (b m : Byte) : statWithMode b m &&& 3#8 = m &&& 3#8 := by
  unfold statWithMode
  ext i hi
  simp only [BitVec.getElem_and, BitVec.getElem_or]
  have : i = 0 ∨ i = 1 ∨ i = 2 ∨ i = 3 ∨ i = 4 ∨ i = 5 ∨ i = 6 ∨ i = 7 := by omega
  rcases this with rfl | rfl | rfl | rfl | rfl | rfl | rfl | rfl <;> simp

theorem statWithMode_get2 (b m : Byte) (h : m.getLsbD 2 = false) :
    (statWithMode b m).getLsbD 2 = b.getLsbD 2 := by
  have h' : m[2] = false := by simpa [BitVec.getLsbD_eq_getElem] using h
  simp [statWithMode, h']

theorem statWrite_low (d b : Byte) : ((d &&& 0xF8#8) ||| (b &&& 0x07#8)) &&& 3#8 = b &&& 3#8 := by
  ext i hi
  simp only [BitVec.getElem_and, BitVec.getElem_or]
  have : i = 0 ∨ i = 1 ∨ i = 2 ∨ i = 3 ∨ i = 4 ∨ i = 5 ∨ i = 6 ∨ i = 7 := by omega
  rcases this with rfl | rfl | rfl | rfl | rfl | rfl | rfl | rfl <;> simp

theorem statWrite_get2 (d b : Byte) : ((d &&& 0xF8#8) ||| (b &&& 0x07#8)).getLsbD 2 = b.getLsbD 2 := by
  simp

/-- The offset of an `Oam` address is below 160. -/
theorem oamOffset_lt {a : Word} (h : inOam a = true) : oamOffset a < 160 := by
  simp only [inOam, Bool.and_eq_true, decide_eq_true_eq] at h
  unfold oamOffset
  omega

/-- After the coincidence check STAT[2] says whether LY equals LYC. -/
theorem coincidence_sound (s : State) : (coincidence s).coincidenceSound := by
  constructor
  · intro h
    rw [coincidence_ppu] at h ⊢
    rw [setBit2_get] at h
    exact of_decide_eq_true h
  · intro _ h
    rw [coincidence_ppu] at h ⊢
    rw [setBit2_get]
    exact decide_eq_true h

/-- A write to a picture-unit register keeps the device invariant. -/
theorem writePpuReg_devOk (r : PpuReg) (d : Byte) (s : State) (h : s.DevOk) : (writePpuReg r d s).DevOk := by
  obtain ⟨h1, h2, h3, h4, h5, h6, h7⟩ := h
  cases r
  case LCDC =>
    unfold writePpuReg
    dsimp only
    split
    · refine ⟨?_, ?_, ?_, ?_, ?_, ?_, coincidence_sound _⟩
      · simpa [State.memoriesCanonical, lcdOff] using h1
      · simpa [State.memoriesInRange, lcdOff] using h2
      · simpa [State.dmaInRange, lcdOff] using h3
      · simpa [State.frameShape, lcdOff] using h4
      · intro _
        simp only [lcdOff, coincidence_ppu, setBit2_mode, statWithMode_mode]
        exact ⟨trivial, by decide⟩
      · simp [lcdOff]
    · rename_i hc
      refine ⟨h1, h2, h3, h4, h5, ?_, h7⟩
      intro ha
      have ha' : s.ppu.lcdActive = true := ha
      simp only [ha', Bool.and_true, Bool.not_eq_true', Bool.not_eq_false] at hc
      exact hc
  case STAT =>
    refine ⟨h1, h2, h3, h4, ?_, h6, ?_⟩
    · intro ha
      exact ⟨(h5 ha).1, (statWrite_low d s.ppu.stat).trans (h5 ha).2⟩
    · constructor
      · intro hb
        exact h7.1 ((statWrite_get2 d s.ppu.stat).symm.trans hb)
      · intro ha hb
        exact (statWrite_get2 d s.ppu.stat).trans (h7.2 ha hb)
  case LYC =>
    unfold writePpuReg
    dsimp only
    refine ⟨?_, ?_, ?_, ?_, ?_, ?_, coincidence_sound _⟩
    · simpa [State.memoriesCanonical] using h1
    · simpa [State.memoriesInRange] using h2
    · simpa [State.dmaInRange] using h3
    · simpa [State.frameShape] using h4
    · intro ha
      simp only [coincidence_ppu, setBit2_mode]
      simp only [coincidence_ppu] at ha
      exact h5 ha
    · simpa using h6
  case DMA =>
    refine ⟨h1, h2, ?_, h4, h5, h6, h7⟩
    intro _
    show 0 < 160
    omega
  all_goals exact ⟨h1, h2, h3, h4, h5, h6, h7⟩

/-- A component's write keeps the device invariant. -/
theorem Component.write_devOk (comp : Component) (a : Word) (d : Byte) (s : State) (h : s.DevOk) :
    (comp.write a d s).DevOk := by
  have h0 := h
  obtain ⟨h1, h2, h3, h4, h5, h6, h7⟩ := h
  cases comp
  case cpu =>
    unfold Component.write
    dsimp only
    split
    · exact h0
    split
    · exact h0
    split
    · rename_i hr
      simp only [inHighRam, Bool.and_eq_true, decide_eq_true_eq] at hr
      exact ⟨⟨h1.1, Memory.wf_write h1.2.1 _ _, h1.2.2⟩,
        ⟨Memory.within_write _ _ _ h2.1 hr.1 (by omega), h2.2⟩, h3, h4, h5, h6, h7⟩
    · exact h0
  case timer =>
    have upd : ∀ change : Timer → Timer, (timerUpdate change s).DevOk := by
      intro change
      refine ⟨?_, ?_, ?_, ?_, ?_, ?_, ?_⟩
      · simpa [State.memoriesCanonical] using h1
      · simpa [State.memoriesInRange] using h2
      · simpa [State.dmaInRange] using h3
      · simpa [State.frameShape] using h4
      · simpa [State.lcdOffQuiet] using h5
      · simpa using h6
      · simpa [State.coincidenceSound] using h7
    unfold Component.write
    dsimp only
    split
    · exact upd _
    split
    · exact h0
    split
    · exact h0
    split
    · exact upd _
    · exact h0
  case ppu =>
    unfold Component.write
    dsimp only
    split
    · rename_i hv
      simp only [inVram, Bool.and_eq_true, decide_eq_true_eq] at hv
      exact ⟨⟨h1.1, h1.2.1, Memory.wf_write h1.2.2.1 _ _, h1.2.2.2⟩,
        ⟨h2.1, Memory.within_write _ _ _ h2.2.1 hv.1 (by omega), h2.2.2⟩, h3, h4, h5, h6, h7⟩
    split
    · rename_i ho
      exact ⟨⟨h1.1, h1.2.1, h1.2.2.1, Memory.wf_write h1.2.2.2 _ _⟩,
        ⟨h2.1, h2.2.1, Memory.within_write _ _ _ h2.2.2 (Nat.zero_le _) (oamOffset_lt ho)⟩, h3, h4, h5, h6, h7⟩
    split
    · exact writePpuReg_devOk _ d s h0
    · exact h0
  case ram r =>
    unfold Component.write
    dsimp only
    split
    · exact ⟨⟨Memory.wf_write h1.1 _ _, h1.2⟩, h2, h3, h4, h5, h6, h7⟩
    · exact h0
  case rom r => exact h0
  case bootRom base =>
    unfold Component.write
    dsimp only
    split <;> exact h0

/-- A bus write keeps the device invariant. -/
theorem busWrite_devOk (s : State) (a : Word) (d : Byte) (h : s.DevOk) : (s.busWrite a d).DevOk :=
  busWrite_keeps State.DevOk a d (fun comp t ht => comp.write_devOk a d t ht) s h

/-- A component's write keeps the schedule, and the tick the LCD started in. -/
theorem Component.write_sched (p on : Nat) (comp : Component) (a : Word) (d : Byte) (s : State)
    (h : s.SchedAt p ∧ s.ppu.lcdOnCycle = on) :
    (comp.write a d s).SchedAt p ∧ (comp.write a d s).ppu.lcdOnCycle = on := by
  cases comp
  case cpu =>
    unfold Component.write
    dsimp only
    repeat' split
    all_goals exact h
  case timer =>
    have upd : ∀ change : Timer → Timer,
        (timerUpdate change s).SchedAt p ∧ (timerUpdate change s).ppu.lcdOnCycle = on := by
      intro change
      simpa [State.SchedAt] using h
    unfold Component.write
    dsimp only
    split
    · exact upd _
    split
    · exact h
    split
    · exact h
    split
    · exact upd _
    · exact h
  case ppu =>
    unfold Component.write
    dsimp only
    split
    · exact h
    split
    · exact h
    split
    · rename_i r _
      cases r
      case LCDC =>
        unfold writePpuReg
        dsimp only
        split
        · refine ⟨?_, ?_⟩
          · intro ha
            simp [lcdOff] at ha
          · simpa [lcdOff] using h.2
        · exact h
      case STAT =>
        refine ⟨?_, h.2⟩
        intro ha
        have ha' := h.1 ha
        exact ⟨ha'.1, (statWrite_low d s.ppu.stat).trans ha'.2.1, ha'.2.2⟩
      case LYC =>
        unfold writePpuReg
        dsimp only
        refine ⟨?_, by simpa using h.2⟩
        intro ha
        rw [coincidence_ppu] at ha ⊢
        have ha' := h.1 ha
        exact ⟨ha'.1, (setBit2_mode _ _).trans ha'.2.1, ha'.2.2⟩
      all_goals exact h
    · exact h
  case ram r =>
    unfold Component.write
    dsimp only
    split <;> exact h
  case rom r => exact h
  case bootRom base =>
    unfold Component.write
    dsimp only
    split <;> exact h

/-- A bus write keeps the schedule, and the tick the LCD started in. -/
theorem busWrite_sched (p on : Nat) (s : State) (a : Word) (d : Byte)
    (h : s.SchedAt p ∧ s.ppu.lcdOnCycle = on) :
    (s.busWrite a d).SchedAt p ∧ (s.busWrite a d).ppu.lcdOnCycle = on :=
  busWrite_keeps (fun t => t.SchedAt p ∧ t.ppu.lcdOnCycle = on) a d
    (fun comp t ht => comp.write_sched p on a d t ht) s h

end Sys2Proof.Machine
end

