-- ==== Sys2Proof/Laws/Exec.lean ====
section
/-! SUPPORT. One equation for every instruction: `exec` is the shared operation of the instruction's form. Later
proofs case on the 60 forms and cite `exec_form`, instead of casing on the 512 instructions. -/

namespace Sys2Proof.Machine

/-- The outcome of a form. -/
def execForm (f : Form) (s : State) : Host.Outcome State Fault Refusal :=
  match f with
  | .stop => raiseStop s
  | .illegal b => raiseIllegal b s
  | .nop => .next (opNop s)
  | .halt => .next (opHalt s)
  | .prefixed => .next (opPrefixed (s.busRead (s.pc + 1#16)) s)
  | .ldRegReg d r => .next (opLdRegReg d r s)
  | .ldRegImm d n => .next (opLdRegImm d n s)
  | .ldRegHl d => .next (opLdRegHl d s)
  | .ldHlReg r => .next (opLdHlReg r s)
  | .ldHlImm n => .next (opLdHlImm n s)
  | .ldAInd i => .next (opLdAInd i s)
  | .ldIndA i => .next (opLdIndA i s)
  | .ldhLoad n => .next (opLdhLoad n s)
  | .ldhStore n => .next (opLdhStore n s)
  | .ldCLoad => .next (opLdCLoad s)
  | .ldCStore => .next (opLdCStore s)
  | .ldAbsLoad nn => .next (opLdAbsLoad nn s)
  | .ldAbsStore nn => .next (opLdAbsStore nn s)
  | .ldPairImm p nn => .next (opLdPairImm p nn s)
  | .ldAbsSp nn => .next (opLdAbsSp nn s)
  | .ldSpHl => .next (opLdSpHl s)
  | .push p => .next (opPush p s)
  | .pop p => .next (opPop p s)
  | .aluReg op r => .next (opAluReg op r s)
  | .aluImm op n => .next (opAluImm op n s)
  | .aluHl op => .next (opAluHl op s)
  | .incReg r => .next (opIncReg r s)
  | .decReg r => .next (opDecReg r s)
  | .incHl => .next (opIncHl s)
  | .decHl => .next (opDecHl s)
  | .incPair p => .next (opIncPair p s)
  | .decPair p => .next (opDecPair p s)
  | .addHl p => .next (opAddHl p s)
  | .addSp e => .next (opAddSp e s)
  | .ldHlSp e => .next (opLdHlSp e s)
  | .cpl => .next (opCpl s)
  | .daa => .next (opDaa s)
  | .scf => .next (opScf s)
  | .ccf => .next (opCcf s)
  | .rotA k => .next (opRotA k s)
  | .rotReg k r => .next (opRotReg k r s)
  | .rotHl k => .next (opRotHl k s)
  | .bitReg b r => .next (opBitReg b r s)
  | .bitHl b => .next (opBitHl b s)
  | .resReg b r => .next (opResReg b r s)
  | .resHl b => .next (opResHl b s)
  | .setReg b r => .next (opSetReg b r s)
  | .setHl b => .next (opSetHl b s)
  | .jp nn => .next (opJp nn s)
  | .jpCond c nn => .next (opJpCond c nn s)
  | .jpHl => .next (opJpHl s)
  | .jr e => .next (opJr e s)
  | .jrCond c e => .next (opJrCond c e s)
  | .call nn => .next (opCall nn s)
  | .callCond c nn => .next (opCallCond c nn s)
  | .ret => .next (opRet s)
  | .retCond c => .next (opRetCond c s)
  | .reti => .next (returnFromInterrupt s)
  | .rst t => .next (opRst t s)
  | .di => .next (opDi s)
  | .ei => .next (opEi s)

/-- Every instruction's meaning is its form's shared operation. -/
theorem exec_form (i : Instr) (s : State) : exec i s = execForm i.form s := by
  cases i <;> rfl

end Sys2Proof.Machine

namespace Sys2Proof

@[simp] theorem Instr.form_ldRegReg (x : R8) (y : R8) :
    (Instr.ldRegReg x y).form = .ldRegReg x y := by
  cases x <;> cases y <;> rfl

@[simp] theorem Instr.form_ldRegImm (x : R8) (n : Byte) :
    (Instr.ldRegImm x n).form = .ldRegImm x n := by
  cases x <;> rfl

@[simp] theorem Instr.form_ldRegHl (x : R8) :
    (Instr.ldRegHl x).form = .ldRegHl x := by
  cases x <;> rfl

@[simp] theorem Instr.form_ldHlReg (x : R8) :
    (Instr.ldHlReg x).form = .ldHlReg x := by
  cases x <;> rfl

@[simp] theorem Instr.form_ldAInd (x : Ind) :
    (Instr.ldAInd x).form = .ldAInd x := by
  cases x <;> rfl

@[simp] theorem Instr.form_ldIndA (x : Ind) :
    (Instr.ldIndA x).form = .ldIndA x := by
  cases x <;> rfl

@[simp] theorem Instr.form_ldPairImm (x : R16) (nn : Word) :
    (Instr.ldPairImm x nn).form = .ldPairImm x nn := by
  cases x <;> rfl

@[simp] theorem Instr.form_push (x : R16S) :
    (Instr.push x).form = .push x := by
  cases x <;> rfl

@[simp] theorem Instr.form_pop (x : R16S) :
    (Instr.pop x).form = .pop x := by
  cases x <;> rfl

@[simp] theorem Instr.form_aluReg (x : AluOp) (y : R8) :
    (Instr.aluReg x y).form = .aluReg x y := by
  cases x <;> cases y <;> rfl

@[simp] theorem Instr.form_aluImm (x : AluOp) (n : Byte) :
    (Instr.aluImm x n).form = .aluImm x n := by
  cases x <;> rfl

@[simp] theorem Instr.form_aluHl (x : AluOp) :
    (Instr.aluHl x).form = .aluHl x := by
  cases x <;> rfl

@[simp] theorem Instr.form_incReg (x : R8) :
    (Instr.incReg x).form = .incReg x := by
  cases x <;> rfl

@[simp] theorem Instr.form_decReg (x : R8) :
    (Instr.decReg x).form = .decReg x := by
  cases x <;> rfl

@[simp] theorem Instr.form_incPair (x : R16) :
    (Instr.incPair x).form = .incPair x := by
  cases x <;> rfl

@[simp] theorem Instr.form_decPair (x : R16) :
    (Instr.decPair x).form = .decPair x := by
  cases x <;> rfl

@[simp] theorem Instr.form_addHl (x : R16) :
    (Instr.addHl x).form = .addHl x := by
  cases x <;> rfl

@[simp] theorem Instr.form_rotReg (x : RotOp) (y : R8) :
    (Instr.rotReg x y).form = .rotReg x y := by
  cases x <;> cases y <;> rfl

@[simp] theorem Instr.form_rotHl (x : RotOp) :
    (Instr.rotHl x).form = .rotHl x := by
  cases x <;> rfl

@[simp] theorem Instr.form_bitReg (x : Field3) (y : R8) :
    (Instr.bitReg x y).form = .bitReg x y := by
  cases x <;> cases y <;> rfl

@[simp] theorem Instr.form_bitHl (x : Field3) :
    (Instr.bitHl x).form = .bitHl x := by
  cases x <;> rfl

@[simp] theorem Instr.form_resReg (x : Field3) (y : R8) :
    (Instr.resReg x y).form = .resReg x y := by
  cases x <;> cases y <;> rfl

@[simp] theorem Instr.form_resHl (x : Field3) :
    (Instr.resHl x).form = .resHl x := by
  cases x <;> rfl

@[simp] theorem Instr.form_setReg (x : Field3) (y : R8) :
    (Instr.setReg x y).form = .setReg x y := by
  cases x <;> cases y <;> rfl

@[simp] theorem Instr.form_setHl (x : Field3) :
    (Instr.setHl x).form = .setHl x := by
  cases x <;> rfl

@[simp] theorem Instr.form_jpCond (x : Cond) (nn : Word) :
    (Instr.jpCond x nn).form = .jpCond x nn := by
  cases x <;> rfl

@[simp] theorem Instr.form_jrCond (x : Cond) (e : Byte) :
    (Instr.jrCond x e).form = .jrCond x e := by
  cases x <;> rfl

@[simp] theorem Instr.form_callCond (x : Cond) (nn : Word) :
    (Instr.callCond x nn).form = .callCond x nn := by
  cases x <;> rfl

@[simp] theorem Instr.form_retCond (x : Cond) :
    (Instr.retCond x).form = .retCond x := by
  cases x <;> rfl

@[simp] theorem Instr.form_rst (x : Field3) :
    (Instr.rst x).form = .rst x := by
  cases x <;> rfl

end Sys2Proof
end

