-- ==== Sys2Proof/Laws/Reach.lean ====
section
/-! SUPPORT. What an instruction or a dispatch can do, said once: it changes the CPU's own state and makes bus
writes (`BusReach`). What every bus write keeps, every instruction keeps. -/

namespace Sys2Proof.Machine

/-- The states reachable from `s` by changes of the CPU's own state and by bus writes, in one tick. -/
inductive BusReach (s : State) : State → Prop where
  | refl : BusReach s s
  | cpu {t u : State} : BusReach s t → t.sameBus u → u.platform = t.platform → u.cycles = t.cycles →
      u.fault = t.fault → BusReach s u
  | write {t : State} (a : Word) (d : Byte) : BusReach s t → BusReach s (t.busWrite a d)

/-- A change of the CPU's own state. -/
theorem BusReach.of_same {s u : State} (h : s.sameBus u) (hp : u.platform = s.platform)
    (hc : u.cycles = s.cycles) (hf : u.fault = s.fault) : BusReach s u :=
  .cpu .refl h hp hc hf

theorem BusReach.retire {s t : State} (s0 : State) (len cost : Nat) (h : BusReach s t) :
    BusReach s (s0.retire len cost t) :=
  .cpu h ⟨rfl, rfl, rfl, rfl, rfl, rfl, rfl⟩ rfl rfl rfl

theorem BusReach.transfer {s t : State} (s0 : State) (target : Word) (cost : Nat) (h : BusReach s t) :
    BusReach s (s0.transfer target cost t) :=
  .cpu h ⟨rfl, rfl, rfl, rfl, rfl, rfl, rfl⟩ rfl rfl rfl

theorem BusReach.route {s t : State} {w : Nat} (ρ : Routing) (x : AluResult w) (h : BusReach s t) :
    BusReach s (t.route ρ x) :=
  .cpu h ⟨rfl, rfl, rfl, rfl, rfl, rfl, rfl⟩ rfl rfl rfl

theorem BusReach.setR8 {s t : State} (r : R8) (v : Byte) (h : BusReach s t) : BusReach s (t.setR8 r v) :=
  .cpu h ⟨rfl, rfl, rfl, rfl, rfl, rfl, rfl⟩ rfl rfl rfl

theorem BusReach.setHl {s t : State} (v : Word) (h : BusReach s t) : BusReach s (t.setHl v) :=
  .cpu h ⟨rfl, rfl, rfl, rfl, rfl, rfl, rfl⟩ rfl rfl rfl

theorem BusReach.setR16 {s t : State} (p : R16) (v : Word) (h : BusReach s t) : BusReach s (t.setR16 p v) := by
  cases p <;> exact .cpu h ⟨rfl, rfl, rfl, rfl, rfl, rfl, rfl⟩ rfl rfl rfl

theorem BusReach.setPair {s t : State} (p : R16S) (v : Word) (h : BusReach s t) :
    BusReach s (t.setPair p v) := by
  cases p <;> exact .cpu h ⟨rfl, rfl, rfl, rfl, rfl, rfl, rfl⟩ rfl rfl rfl

theorem BusReach.indStep {s t : State} (i : Ind) (a : Word) (h : BusReach s t) :
    BusReach s (t.indStep i a) := by
  cases i <;> exact .cpu h ⟨rfl, rfl, rfl, rfl, rfl, rfl, rfl⟩ rfl rfl rfl

theorem BusReach.busWrite16 {s t : State} (a v : Word) (h : BusReach s t) : BusReach s (t.busWrite16 a v) :=
  .write _ _ (.write _ _ h)

theorem BusReach.push16 {s t : State} (v : Word) (h : BusReach s t) : BusReach s (push16 v t) := by
  refine BusReach.busWrite16 _ _ ?_
  exact .cpu h ⟨rfl, rfl, rfl, rfl, rfl, rfl, rfl⟩ rfl rfl rfl

theorem BusReach.dropWord {s t : State} (h : BusReach s t) : BusReach s (dropWord t) :=
  .cpu h ⟨rfl, rfl, rfl, rfl, rfl, rfl, rfl⟩ rfl rfl rfl

theorem BusReach.aluA {s t : State} (op : AluOp) (v : Byte) (h : BusReach s t) : BusReach s (aluA op v t) := by
  cases op <;> exact .cpu h ⟨rfl, rfl, rfl, rfl, rfl, rfl, rfl⟩ rfl rfl rfl

theorem opPrefixed_reach (b : Byte) (s : State) : BusReach s (opPrefixed b s) := by
  have hl : ∀ (len cost : Nat) (v : Byte), BusReach s (s.retire len cost (s.busWrite s.hl v)) :=
    fun _ _ _ => .retire _ _ _ (.write _ _ .refl)
  unfold opPrefixed
  split
  · unfold opPrefixedReg
    split
    · exact .retire _ _ _ (.route _ _ (.setR8 _ _ .refl))
    · exact .retire _ _ _ (.route _ _ .refl)
    · exact .retire _ _ _ (.setR8 _ _ .refl)
    · exact .retire _ _ _ (.setR8 _ _ .refl)
  · unfold opPrefixedHl
    split
    · exact .retire _ _ _ (.route _ _ (.write _ _ .refl))
    · exact .retire _ _ _ (.route _ _ .refl)
    · exact .retire _ _ _ (.write _ _ .refl)
    · exact .retire _ _ _ (.write _ _ .refl)

/-- What an instruction that completes can do. -/
theorem execForm_reach (f : Form) (s t : State) (h : execForm f s = .next t) : BusReach s t := by
  cases f <;> simp only [execForm, raiseStop, raiseIllegal, Host.Outcome.next.injEq, reduceCtorEq] at h <;>
    subst h
  case nop => exact .retire _ _ _ .refl
  case halt => exact .of_same ⟨rfl, rfl, rfl, rfl, rfl, rfl, rfl⟩ rfl rfl rfl
  case prefixed => exact opPrefixed_reach _ s
  case ldRegReg => exact .retire _ _ _ (.setR8 _ _ .refl)
  case ldRegImm => exact .retire _ _ _ (.setR8 _ _ .refl)
  case ldRegHl => exact .retire _ _ _ (.setR8 _ _ .refl)
  case ldHlReg => exact .retire _ _ _ (.write _ _ .refl)
  case ldHlImm => exact .retire _ _ _ (.write _ _ .refl)
  case ldAInd => exact .retire _ _ _ (.indStep _ _ (.setR8 _ _ .refl))
  case ldIndA => exact .retire _ _ _ (.indStep _ _ (.write _ _ .refl))
  case ldhLoad => exact .retire _ _ _ (.setR8 _ _ .refl)
  case ldhStore => exact .retire _ _ _ (.write _ _ .refl)
  case ldCLoad => exact .retire _ _ _ (.setR8 _ _ .refl)
  case ldCStore => exact .retire _ _ _ (.write _ _ .refl)
  case ldAbsLoad => exact .retire _ _ _ (.setR8 _ _ .refl)
  case ldAbsStore => exact .retire _ _ _ (.write _ _ .refl)
  case ldPairImm => exact .retire _ _ _ (.setR16 _ _ .refl)
  case ldAbsSp => exact .retire _ _ _ (.busWrite16 _ _ .refl)
  case ldSpHl => exact .retire _ _ _ (.of_same ⟨rfl, rfl, rfl, rfl, rfl, rfl, rfl⟩ rfl rfl rfl)
  case push => exact .retire _ _ _ (.push16 _ .refl)
  case pop => exact .retire _ _ _ (.setPair _ _ (.dropWord .refl))
  case aluReg => exact .retire _ _ _ (.aluA _ _ .refl)
  case aluImm => exact .retire _ _ _ (.aluA _ _ .refl)
  case aluHl => exact .retire _ _ _ (.aluA _ _ .refl)
  case incReg => exact .retire _ _ _ (.route _ _ (.setR8 _ _ .refl))
  case decReg => exact .retire _ _ _ (.route _ _ (.setR8 _ _ .refl))
  case incHl => exact .retire _ _ _ (.route _ _ (.write _ _ .refl))
  case decHl => exact .retire _ _ _ (.route _ _ (.write _ _ .refl))
  case incPair => exact .retire _ _ _ (.setR16 _ _ .refl)
  case decPair => exact .retire _ _ _ (.setR16 _ _ .refl)
  case addHl => exact .retire _ _ _ (.route _ _ (.setHl _ .refl))
  case addSp =>
    exact .retire _ _ _ (.route _ _ (.of_same ⟨rfl, rfl, rfl, rfl, rfl, rfl, rfl⟩ rfl rfl rfl))
  case ldHlSp => exact .retire _ _ _ (.route _ _ (.setHl _ .refl))
  case cpl => exact .retire _ _ _ (.route _ _ (.setR8 _ _ .refl))
  case daa => exact .retire _ _ _ (.route _ _ (.setR8 _ _ .refl))
  case scf => exact .retire _ _ _ (.route _ _ .refl)
  case ccf => exact .retire _ _ _ (.of_same ⟨rfl, rfl, rfl, rfl, rfl, rfl, rfl⟩ rfl rfl rfl)
  case rotA => exact .retire _ _ _ (.route _ _ (.setR8 _ _ .refl))
  case rotReg => exact .retire _ _ _ (.route _ _ (.setR8 _ _ .refl))
  case rotHl => exact .retire _ _ _ (.route _ _ (.write _ _ .refl))
  case bitReg => exact .retire _ _ _ (.route _ _ .refl)
  case bitHl => exact .retire _ _ _ (.route _ _ .refl)
  case resReg => exact .retire _ _ _ (.setR8 _ _ .refl)
  case resHl => exact .retire _ _ _ (.write _ _ .refl)
  case setReg => exact .retire _ _ _ (.setR8 _ _ .refl)
  case setHl => exact .retire _ _ _ (.write _ _ .refl)
  case jp => exact .transfer _ _ _ .refl
  case jpCond =>
    unfold opJpCond
    split
    · exact .transfer _ _ _ .refl
    · exact .retire _ _ _ .refl
  case jpHl => exact .transfer _ _ _ .refl
  case jr => exact .transfer _ _ _ .refl
  case jrCond =>
    unfold opJrCond
    split
    · exact .transfer _ _ _ .refl
    · exact .retire _ _ _ .refl
  case call => exact .transfer _ _ _ (.push16 _ .refl)
  case callCond =>
    unfold opCallCond
    split
    · exact .transfer _ _ _ (.push16 _ .refl)
    · exact .retire _ _ _ .refl
  case ret => exact .transfer _ _ _ (.dropWord .refl)
  case retCond =>
    unfold opRetCond
    split
    · exact .transfer _ _ _ (.dropWord .refl)
    · exact .retire _ _ _ .refl
  case reti => exact .transfer _ _ _ (.of_same ⟨rfl, rfl, rfl, rfl, rfl, rfl, rfl⟩ rfl rfl rfl)
  case rst => exact .transfer _ _ _ (.push16 _ .refl)
  case di => exact .retire _ _ _ (.of_same ⟨rfl, rfl, rfl, rfl, rfl, rfl, rfl⟩ rfl rfl rfl)
  case ei => exact .retire _ _ _ (.of_same ⟨rfl, rfl, rfl, rfl, rfl, rfl, rfl⟩ rfl rfl rfl)

/-- What an instruction that completes can do. -/
theorem exec_reach (i : Instr) (s t : State) (h : exec i s = .next t) : BusReach s t := by
  rw [exec_form] at h
  exact execForm_reach _ s t h

/-- A reachable state has the tick, the platform and the fault it started with. -/
theorem BusReach.fixed {s t : State} (h : BusReach s t) :
    t.cycles = s.cycles ∧ t.platform = s.platform ∧ t.fault = s.fault := by
  induction h with
  | refl => exact ⟨rfl, rfl, rfl⟩
  | cpu _ _ hp hc hf ih => exact ⟨hc.trans ih.1, hp.trans ih.2.1, hf.trans ih.2.2⟩
  | write a d _ ih => simpa using ih

/-- A change of the CPU's own state keeps the device invariant. -/
theorem State.devOk_congr {s t : State} (h : s.sameBus t) (hs : s.DevOk) : t.DevOk := by
  obtain ⟨_, _, h3, _, h5, h6, _⟩ := h
  simpa [State.DevOk, State.memoriesCanonical, State.memoriesInRange, State.dmaInRange, State.frameShape,
    State.lcdOffQuiet, State.coincidenceSound, h3, h5, h6] using hs

/-- Every instruction keeps the device invariant. -/
theorem BusReach.devOk {s t : State} (h : BusReach s t) (hs : s.DevOk) : t.DevOk := by
  induction h with
  | refl => exact hs
  | cpu _ hb _ _ _ ih => exact State.devOk_congr hb ih
  | write a d _ ih => exact busWrite_devOk _ a d ih

/-- R86: no instruction starts boot mode again. -/
theorem BusReach.bootEnded {s t : State} (h : BusReach s t) (hs : s.bootActive = false) :
    t.bootActive = false := by
  induction h with
  | refl => exact hs
  | cpu _ hb _ _ _ ih => exact hb.2.2.2.2.2.2.trans ih
  | write a d _ ih => exact busWrite_bootEnded _ a d ih

/-- Every instruction keeps the schedule. -/
theorem BusReach.sched {s t : State} {p on : Nat} (h : BusReach s t)
    (hs : s.SchedAt p ∧ s.ppu.lcdOnCycle = on) : t.SchedAt p ∧ t.ppu.lcdOnCycle = on := by
  induction h with
  | refl => exact hs
  | cpu _ hb _ _ _ ih =>
    obtain ⟨_, _, _, _, h5, _, _⟩ := hb
    simpa [State.SchedAt, h5] using ih
  | write a d _ ih => exact busWrite_sched p on _ a d ih

end Sys2Proof.Machine
end

