-- ==== Sys2Proof/Laws/Cpu.lean ====
section
/-! SUPPORT. What an instruction does to time, to F's low nibble and to `halted`, form by form. -/

namespace Sys2Proof.Machine

@[simp] theorem aluA_cycles (op : AluOp) (v : Byte) (s : State) : (aluA op v s).cycles = s.cycles := by
  cases op <;> rfl

@[simp] theorem aluA_halted (op : AluOp) (v : Byte) (s : State) : (aluA op v s).halted = s.halted := by
  cases op <;> rfl

/-- How an instruction ends: not halted, at a boundary 1 to 6 ticks ahead (R393); or halted. -/
def endsWithin (s t : State) : Prop := s.cycles < t.next ∧ t.next ≤ s.cycles + 6 ∧ t.halted = s.halted

theorem endsWithin_retire (s t : State) (len cost : Nat) (h : 1 ≤ cost ∧ cost ≤ 6)
    (ht : t.halted = s.halted) : endsWithin s (s.retire len cost t) := by
  refine ⟨?_, ?_, ?_⟩
  · simp; omega
  · simp; omega
  · simpa using ht

theorem endsWithin_transfer (s t : State) (target : Word) (cost : Nat) (h : 1 ≤ cost ∧ cost ≤ 6)
    (ht : t.halted = s.halted) : endsWithin s (s.transfer target cost t) := by
  refine ⟨?_, ?_, ?_⟩
  · simp; omega
  · simp; omega
  · simpa using ht

theorem opPrefixed_ends (b : Byte) (s : State) : endsWithin s (opPrefixed b s) := by
  unfold opPrefixed
  split
  · unfold opPrefixedReg
    split <;> exact endsWithin_retire _ _ _ _ (by omega) rfl
  · unfold opPrefixedHl
    split
    · exact endsWithin_retire _ _ _ _ (by omega) (by simp)
    · exact endsWithin_retire _ _ _ _ (by omega) rfl
    · exact endsWithin_retire _ _ _ _ (by omega) (by simp)
    · exact endsWithin_retire _ _ _ _ (by omega) (by simp)

/-- Every instruction that completes ends 1 to 6 ticks ahead, or halts (R366, R393, R397). -/
theorem execForm_ends (f : Form) (s t : State) (h : execForm f s = .next t) :
    endsWithin s t ∨ t.halted = true := by
  cases f <;> simp only [execForm, raiseStop, raiseIllegal, Host.Outcome.next.injEq, reduceCtorEq] at h <;>
    subst h
  case halt => exact .inr rfl
  case prefixed => exact .inl (opPrefixed_ends _ s)
  case jpCond =>
    left
    unfold opJpCond
    split
    · exact endsWithin_transfer _ _ _ _ (by omega) rfl
    · exact endsWithin_retire _ _ _ _ (by omega) rfl
  case jrCond =>
    left
    unfold opJrCond
    split
    · exact endsWithin_transfer _ _ _ _ (by omega) rfl
    · exact endsWithin_retire _ _ _ _ (by omega) rfl
  case callCond =>
    left
    unfold opCallCond
    split
    · exact endsWithin_transfer _ _ _ _ (by omega) (by simp)
    · exact endsWithin_retire _ _ _ _ (by omega) rfl
  case retCond =>
    left
    unfold opRetCond
    split
    · exact endsWithin_transfer _ _ _ _ (by omega) rfl
    · exact endsWithin_retire _ _ _ _ (by omega) rfl
  all_goals left
  all_goals first
    | exact endsWithin_retire _ _ _ _ (by omega) (by simp)
    | exact endsWithin_transfer _ _ _ _ (by omega) (by simp)

/-- Every instruction that completes ends 1 to 6 ticks ahead, or halts. -/
theorem exec_ends (i : Instr) (s t : State) (h : exec i s = .next t) : endsWithin s t ∨ t.halted = true := by
  rw [exec_form] at h
  exact execForm_ends _ s t h

@[simp] theorem aluA_low (op : AluOp) (v : Byte) (s : State) : (aluA op v s).regs.f &&& 0x0F#8 = 0#8 := by
  cases op <;> exact Routing.apply_low _ _ _

theorem setR16_f (s : State) (p : R16) (v : Word) : (s.setR16 p v).regs.f = s.regs.f := by
  cases p <;> rfl

theorem indStep_f (s : State) (i : Ind) (a : Word) : (s.indStep i a).regs.f = s.regs.f := by
  cases i <;> rfl

theorem setPair_low (s : State) (p : R16S) (v : Word) (h : s.flagsLowNibbleZero) :
    (s.setPair p v).flagsLowNibbleZero := by
  cases p
  case AF =>
    show (lowByte v &&& 0xF0#8) &&& 0x0F#8 = 0#8
    rw [BitVec.and_assoc]
    exact BitVec.and_zero
  all_goals exact h

theorem opPrefixed_low (b : Byte) (s : State) (h : s.flagsLowNibbleZero) :
    (opPrefixed b s).flagsLowNibbleZero := by
  unfold opPrefixed
  split
  · unfold opPrefixedReg
    split
    · exact Routing.apply_low _ _ _
    · exact Routing.apply_low _ _ _
    · simpa [State.flagsLowNibbleZero, opResReg] using h
    · simpa [State.flagsLowNibbleZero, opSetReg] using h
  · unfold opPrefixedHl
    split
    · exact Routing.apply_low _ _ _
    · exact Routing.apply_low _ _ _
    · simpa [State.flagsLowNibbleZero, opResHl] using h
    · simpa [State.flagsLowNibbleZero, opSetHl] using h

/-- R24: every instruction keeps F's low nibble 0. -/
theorem execForm_low (f : Form) (s t : State) (h : execForm f s = .next t) (hs : s.flagsLowNibbleZero) :
    t.flagsLowNibbleZero := by
  cases f <;> simp only [execForm, raiseStop, raiseIllegal, Host.Outcome.next.injEq, reduceCtorEq] at h <;>
    subst h
  case prefixed => exact opPrefixed_low _ s hs
  case pop => exact setPair_low (dropWord s) _ _ hs
  case ldAInd => simpa [State.flagsLowNibbleZero, opLdAInd, indStep_f] using hs
  case ldIndA => simpa [State.flagsLowNibbleZero, opLdIndA, indStep_f] using hs
  case ldPairImm => simpa [State.flagsLowNibbleZero, opLdPairImm, setR16_f] using hs
  case incPair => simpa [State.flagsLowNibbleZero, opIncPair, setR16_f] using hs
  case decPair => simpa [State.flagsLowNibbleZero, opDecPair, setR16_f] using hs
  case aluReg => exact aluA_low _ _ _
  case aluImm => exact aluA_low _ _ _
  case aluHl => exact aluA_low _ _ _
  case ccf => exact packFlags_low _ _ _ _
  case jpCond => unfold opJpCond; split <;> exact hs
  case jrCond => unfold opJrCond; split <;> exact hs
  case retCond => unfold opRetCond; split <;> exact hs
  case callCond =>
    unfold opCallCond
    split
    · simpa [State.flagsLowNibbleZero] using hs
    · exact hs
  case ldHlReg => simpa [State.flagsLowNibbleZero, opLdHlReg] using hs
  case ldHlImm => simpa [State.flagsLowNibbleZero, opLdHlImm] using hs
  case ldhStore => simpa [State.flagsLowNibbleZero, opLdhStore] using hs
  case ldCStore => simpa [State.flagsLowNibbleZero, opLdCStore] using hs
  case ldAbsStore => simpa [State.flagsLowNibbleZero, opLdAbsStore] using hs
  case ldAbsSp => simpa [State.flagsLowNibbleZero, opLdAbsSp] using hs
  case push => simpa [State.flagsLowNibbleZero, opPush] using hs
  case resHl => simpa [State.flagsLowNibbleZero, opResHl] using hs
  case setHl => simpa [State.flagsLowNibbleZero, opSetHl] using hs
  case call => simpa [State.flagsLowNibbleZero, opCall] using hs
  case rst => simpa [State.flagsLowNibbleZero, opRst] using hs
  case ldRegReg => simpa [State.flagsLowNibbleZero, opLdRegReg] using hs
  case ldRegImm => simpa [State.flagsLowNibbleZero, opLdRegImm] using hs
  case ldRegHl => simpa [State.flagsLowNibbleZero, opLdRegHl] using hs
  case ldhLoad => simpa [State.flagsLowNibbleZero, opLdhLoad] using hs
  case ldCLoad => simpa [State.flagsLowNibbleZero, opLdCLoad] using hs
  case ldAbsLoad => simpa [State.flagsLowNibbleZero, opLdAbsLoad] using hs
  case resReg => simpa [State.flagsLowNibbleZero, opResReg] using hs
  case setReg => simpa [State.flagsLowNibbleZero, opSetReg] using hs
  all_goals first
    | exact hs
    | exact Routing.apply_low _ _ _

end Sys2Proof.Machine
end

