-- ==== Sys2Proof/Laws/Entry.lean ====
section
/-! SUPPORT. The opcode table's numbers by form: proofs about time and length case on the 60 forms instead of the 512
rows. -/

namespace Sys2Proof

/-- The table entry of a form (30_encoding.md R132, R133, the columns `len` and `cost`). -/
def Form.entry : Form → TableEntry
  | .nop => ⟨1, 1, 0⟩
  | .halt => ⟨1, 0, 0⟩
  | .stop => ⟨1, 0, 0⟩
  | .illegal _ => ⟨1, 0, 0⟩
  | .prefixed => ⟨1, 0, 0⟩
  | .ldRegReg _ _ => ⟨1, 1, 0⟩
  | .ldRegImm _ _ => ⟨2, 2, 0⟩
  | .ldRegHl _ => ⟨1, 2, 0⟩
  | .ldHlReg _ => ⟨1, 2, 0⟩
  | .ldHlImm _ => ⟨2, 3, 0⟩
  | .ldAInd _ => ⟨1, 2, 0⟩
  | .ldIndA _ => ⟨1, 2, 0⟩
  | .ldhLoad _ => ⟨2, 3, 0⟩
  | .ldhStore _ => ⟨2, 3, 0⟩
  | .ldCLoad => ⟨1, 2, 0⟩
  | .ldCStore => ⟨1, 2, 0⟩
  | .ldAbsLoad _ => ⟨3, 4, 0⟩
  | .ldAbsStore _ => ⟨3, 4, 0⟩
  | .ldPairImm _ _ => ⟨3, 3, 0⟩
  | .ldAbsSp _ => ⟨3, 5, 0⟩
  | .ldSpHl => ⟨1, 2, 0⟩
  | .push _ => ⟨1, 4, 0⟩
  | .pop _ => ⟨1, 3, 0⟩
  | .aluReg _ _ => ⟨1, 1, 0⟩
  | .aluImm _ _ => ⟨2, 2, 0⟩
  | .aluHl _ => ⟨1, 2, 0⟩
  | .incReg _ => ⟨1, 1, 0⟩
  | .decReg _ => ⟨1, 1, 0⟩
  | .incHl => ⟨1, 3, 0⟩
  | .decHl => ⟨1, 3, 0⟩
  | .incPair _ => ⟨1, 2, 0⟩
  | .decPair _ => ⟨1, 2, 0⟩
  | .addHl _ => ⟨1, 2, 0⟩
  | .addSp _ => ⟨2, 4, 0⟩
  | .ldHlSp _ => ⟨2, 3, 0⟩
  | .cpl => ⟨1, 1, 0⟩
  | .daa => ⟨1, 1, 0⟩
  | .scf => ⟨1, 1, 0⟩
  | .ccf => ⟨1, 1, 0⟩
  | .rotA _ => ⟨1, 1, 0⟩
  | .rotReg _ _ => ⟨2, 2, 0⟩
  | .rotHl _ => ⟨2, 4, 0⟩
  | .bitReg _ _ => ⟨2, 2, 0⟩
  | .bitHl _ => ⟨2, 3, 0⟩
  | .resReg _ _ => ⟨2, 2, 0⟩
  | .resHl _ => ⟨2, 4, 0⟩
  | .setReg _ _ => ⟨2, 2, 0⟩
  | .setHl _ => ⟨2, 4, 0⟩
  | .jp _ => ⟨3, 4, 0⟩
  | .jpCond _ _ => ⟨3, 3, 1⟩
  | .jpHl => ⟨1, 1, 0⟩
  | .jr _ => ⟨2, 3, 0⟩
  | .jrCond _ _ => ⟨2, 2, 1⟩
  | .call _ => ⟨3, 6, 0⟩
  | .callCond _ _ => ⟨3, 3, 3⟩
  | .ret => ⟨1, 4, 0⟩
  | .retCond _ => ⟨1, 2, 3⟩
  | .reti => ⟨1, 4, 0⟩
  | .rst _ => ⟨1, 4, 0⟩
  | .di => ⟨1, 1, 0⟩
  | .ei => ⟨1, 1, 0⟩

/-- Every row of the table is its form's. -/
theorem Instr.entry_form (i : Instr) : i.entry = i.form.entry := by
  cases i <;> rfl

/-- R121: the two ways to read an instruction agree: where the bytes at `pc` decode from the front of a list, a fetch
of exactly the instruction's bytes gives the same instruction. -/
theorem decodeAt_of_decode (read : Word → Byte) (pc : Word) (i : Instr) (rest : List Byte)
    (h : decode [read pc, read (pc + 1#16), read (pc + 2#16)] = .ok (i, rest)) : decodeAt read pc = i := by
  unfold decode at h
  unfold decodeAt
  dsimp only at h
  split at h <;> rename_i hp
  · rw [if_pos hp]
    injection h with h
    exact congrArg Prod.fst h
  · rw [if_neg hp]
    split at h
    all_goals first
      | (rename_i h1; injection h with h; rw [h1]; exact congrArg Prod.fst h)
      | (rename_i h1 h2; simp only [List.cons.injEq] at h2; injection h with h; rw [h1]
         obtain ⟨rfl, rfl⟩ := h2; exact congrArg Prod.fst h)
      | (rename_i h1 h2; simp only [List.cons.injEq] at h2; injection h with h; rw [h1]
         obtain ⟨rfl, rfl, rfl⟩ := h2; exact congrArg Prod.fst h)
      | simp at h

end Sys2Proof
end

