-- ==== Sys2Proof/Laws/PerInstr.lean ====
section
/-! SUPPORT. A family of statements with one lemma per constructor of Instr: decoding what the encoder writes. -/

namespace Sys2Proof.Laws.RoundTrip

open Sys2Proof.Machine

/-- A well-formed instruction's bytes, with any bytes after them, decode to it and leave those bytes. -/
def Statement (i : Instr) : Prop :=
  i.WellFormed → ∀ rest : List Byte, decode (encode i ++ rest) = .ok (i, rest)

theorem LD_BC_n16 (n : Word) : Statement (.LD_BC_n16 n) := fun _ _ =>
  congrArg (fun w => Except.ok (Instr.LD_BC_n16 w, _)) (make16_bytes n)
theorem LD_B_n8 (n : Byte) : Statement (.LD_B_n8 n) := fun _ _ => rfl
theorem LD_atn16_SP (n : Word) : Statement (.LD_atn16_SP n) := fun _ _ =>
  congrArg (fun w => Except.ok (Instr.LD_atn16_SP w, _)) (make16_bytes n)
theorem LD_C_n8 (n : Byte) : Statement (.LD_C_n8 n) := fun _ _ => rfl
theorem LD_DE_n16 (n : Word) : Statement (.LD_DE_n16 n) := fun _ _ =>
  congrArg (fun w => Except.ok (Instr.LD_DE_n16 w, _)) (make16_bytes n)
theorem LD_D_n8 (n : Byte) : Statement (.LD_D_n8 n) := fun _ _ => rfl
theorem JR_e8 (e : Byte) : Statement (.JR_e8 e) := fun _ _ => rfl
theorem LD_E_n8 (n : Byte) : Statement (.LD_E_n8 n) := fun _ _ => rfl
theorem JR_NZ_e8 (e : Byte) : Statement (.JR_NZ_e8 e) := fun _ _ => rfl
theorem LD_HL_n16 (n : Word) : Statement (.LD_HL_n16 n) := fun _ _ =>
  congrArg (fun w => Except.ok (Instr.LD_HL_n16 w, _)) (make16_bytes n)
theorem LD_H_n8 (n : Byte) : Statement (.LD_H_n8 n) := fun _ _ => rfl
theorem JR_Z_e8 (e : Byte) : Statement (.JR_Z_e8 e) := fun _ _ => rfl
theorem LD_L_n8 (n : Byte) : Statement (.LD_L_n8 n) := fun _ _ => rfl
theorem JR_NC_e8 (e : Byte) : Statement (.JR_NC_e8 e) := fun _ _ => rfl
theorem LD_SP_n16 (n : Word) : Statement (.LD_SP_n16 n) := fun _ _ =>
  congrArg (fun w => Except.ok (Instr.LD_SP_n16 w, _)) (make16_bytes n)
theorem LD_atHL_n8 (n : Byte) : Statement (.LD_atHL_n8 n) := fun _ _ => rfl
theorem JR_C_e8 (e : Byte) : Statement (.JR_C_e8 e) := fun _ _ => rfl
theorem LD_A_n8 (n : Byte) : Statement (.LD_A_n8 n) := fun _ _ => rfl
theorem JP_NZ_n16 (n : Word) : Statement (.JP_NZ_n16 n) := fun _ _ =>
  congrArg (fun w => Except.ok (Instr.JP_NZ_n16 w, _)) (make16_bytes n)
theorem JP_n16 (n : Word) : Statement (.JP_n16 n) := fun _ _ =>
  congrArg (fun w => Except.ok (Instr.JP_n16 w, _)) (make16_bytes n)
theorem CALL_NZ_n16 (n : Word) : Statement (.CALL_NZ_n16 n) := fun _ _ =>
  congrArg (fun w => Except.ok (Instr.CALL_NZ_n16 w, _)) (make16_bytes n)
theorem ADD_A_n8 (n : Byte) : Statement (.ADD_A_n8 n) := fun _ _ => rfl
theorem JP_Z_n16 (n : Word) : Statement (.JP_Z_n16 n) := fun _ _ =>
  congrArg (fun w => Except.ok (Instr.JP_Z_n16 w, _)) (make16_bytes n)
theorem CALL_Z_n16 (n : Word) : Statement (.CALL_Z_n16 n) := fun _ _ =>
  congrArg (fun w => Except.ok (Instr.CALL_Z_n16 w, _)) (make16_bytes n)
theorem CALL_n16 (n : Word) : Statement (.CALL_n16 n) := fun _ _ =>
  congrArg (fun w => Except.ok (Instr.CALL_n16 w, _)) (make16_bytes n)
theorem ADC_A_n8 (n : Byte) : Statement (.ADC_A_n8 n) := fun _ _ => rfl
theorem JP_NC_n16 (n : Word) : Statement (.JP_NC_n16 n) := fun _ _ =>
  congrArg (fun w => Except.ok (Instr.JP_NC_n16 w, _)) (make16_bytes n)
theorem CALL_NC_n16 (n : Word) : Statement (.CALL_NC_n16 n) := fun _ _ =>
  congrArg (fun w => Except.ok (Instr.CALL_NC_n16 w, _)) (make16_bytes n)
theorem SUB_n8 (n : Byte) : Statement (.SUB_n8 n) := fun _ _ => rfl
theorem JP_C_n16 (n : Word) : Statement (.JP_C_n16 n) := fun _ _ =>
  congrArg (fun w => Except.ok (Instr.JP_C_n16 w, _)) (make16_bytes n)
theorem CALL_C_n16 (n : Word) : Statement (.CALL_C_n16 n) := fun _ _ =>
  congrArg (fun w => Except.ok (Instr.CALL_C_n16 w, _)) (make16_bytes n)
theorem SBC_A_n8 (n : Byte) : Statement (.SBC_A_n8 n) := fun _ _ => rfl
theorem LDH_atn8_A (n : Byte) : Statement (.LDH_atn8_A n) := fun _ _ => rfl
theorem AND_n8 (n : Byte) : Statement (.AND_n8 n) := fun _ _ => rfl
theorem ADD_SP_e8 (e : Byte) : Statement (.ADD_SP_e8 e) := fun _ _ => rfl
theorem LD_atn16_A (n : Word) : Statement (.LD_atn16_A n) := fun _ _ =>
  congrArg (fun w => Except.ok (Instr.LD_atn16_A w, _)) (make16_bytes n)
theorem XOR_n8 (n : Byte) : Statement (.XOR_n8 n) := fun _ _ => rfl
theorem LDH_A_atn8 (n : Byte) : Statement (.LDH_A_atn8 n) := fun _ _ => rfl
theorem OR_n8 (n : Byte) : Statement (.OR_n8 n) := fun _ _ => rfl
theorem LD_HL_SPe8 (e : Byte) : Statement (.LD_HL_SPe8 e) := fun _ _ => rfl
theorem LD_A_atn16 (n : Word) : Statement (.LD_A_atn16 n) := fun _ _ =>
  congrArg (fun w => Except.ok (Instr.LD_A_atn16 w, _)) (make16_bytes n)
theorem CP_n8 (n : Byte) : Statement (.CP_n8 n) := fun _ _ => rfl
theorem NOP : Statement .NOP := fun _ _ => rfl
theorem LD_atBC_A : Statement .LD_atBC_A := fun _ _ => rfl
theorem INC_BC : Statement .INC_BC := fun _ _ => rfl
theorem INC_B : Statement .INC_B := fun _ _ => rfl
theorem DEC_B : Statement .DEC_B := fun _ _ => rfl
theorem RLCA : Statement .RLCA := fun _ _ => rfl
theorem ADD_HL_BC : Statement .ADD_HL_BC := fun _ _ => rfl
theorem LD_A_atBC : Statement .LD_A_atBC := fun _ _ => rfl
theorem DEC_BC : Statement .DEC_BC := fun _ _ => rfl
theorem INC_C : Statement .INC_C := fun _ _ => rfl
theorem DEC_C : Statement .DEC_C := fun _ _ => rfl
theorem RRCA : Statement .RRCA := fun _ _ => rfl
theorem STOP : Statement .STOP := fun _ _ => rfl
theorem LD_atDE_A : Statement .LD_atDE_A := fun _ _ => rfl
theorem INC_DE : Statement .INC_DE := fun _ _ => rfl
theorem INC_D : Statement .INC_D := fun _ _ => rfl
theorem DEC_D : Statement .DEC_D := fun _ _ => rfl
theorem RLA : Statement .RLA := fun _ _ => rfl
theorem ADD_HL_DE : Statement .ADD_HL_DE := fun _ _ => rfl
theorem LD_A_atDE : Statement .LD_A_atDE := fun _ _ => rfl
theorem DEC_DE : Statement .DEC_DE := fun _ _ => rfl
theorem INC_E : Statement .INC_E := fun _ _ => rfl
theorem DEC_E : Statement .DEC_E := fun _ _ => rfl
theorem RRA : Statement .RRA := fun _ _ => rfl
theorem LD_atHLinc_A : Statement .LD_atHLinc_A := fun _ _ => rfl
theorem INC_HL : Statement .INC_HL := fun _ _ => rfl
theorem INC_H : Statement .INC_H := fun _ _ => rfl
theorem DEC_H : Statement .DEC_H := fun _ _ => rfl
theorem DAA : Statement .DAA := fun _ _ => rfl
theorem ADD_HL_HL : Statement .ADD_HL_HL := fun _ _ => rfl
theorem LD_A_atHLinc : Statement .LD_A_atHLinc := fun _ _ => rfl
theorem DEC_HL : Statement .DEC_HL := fun _ _ => rfl
theorem INC_L : Statement .INC_L := fun _ _ => rfl
theorem DEC_L : Statement .DEC_L := fun _ _ => rfl
theorem CPL : Statement .CPL := fun _ _ => rfl
theorem LD_atHLdec_A : Statement .LD_atHLdec_A := fun _ _ => rfl
theorem INC_SP : Statement .INC_SP := fun _ _ => rfl
theorem INC_atHL : Statement .INC_atHL := fun _ _ => rfl
theorem DEC_atHL : Statement .DEC_atHL := fun _ _ => rfl
theorem SCF : Statement .SCF := fun _ _ => rfl
theorem ADD_HL_SP : Statement .ADD_HL_SP := fun _ _ => rfl
theorem LD_A_atHLdec : Statement .LD_A_atHLdec := fun _ _ => rfl
theorem DEC_SP : Statement .DEC_SP := fun _ _ => rfl
theorem INC_A : Statement .INC_A := fun _ _ => rfl
theorem DEC_A : Statement .DEC_A := fun _ _ => rfl
theorem CCF : Statement .CCF := fun _ _ => rfl
theorem LD_B_B : Statement .LD_B_B := fun _ _ => rfl
theorem LD_B_C : Statement .LD_B_C := fun _ _ => rfl
theorem LD_B_D : Statement .LD_B_D := fun _ _ => rfl
theorem LD_B_E : Statement .LD_B_E := fun _ _ => rfl
theorem LD_B_H : Statement .LD_B_H := fun _ _ => rfl
theorem LD_B_L : Statement .LD_B_L := fun _ _ => rfl
theorem LD_B_atHL : Statement .LD_B_atHL := fun _ _ => rfl
theorem LD_B_A : Statement .LD_B_A := fun _ _ => rfl
theorem LD_C_B : Statement .LD_C_B := fun _ _ => rfl
theorem LD_C_C : Statement .LD_C_C := fun _ _ => rfl
theorem LD_C_D : Statement .LD_C_D := fun _ _ => rfl
theorem LD_C_E : Statement .LD_C_E := fun _ _ => rfl
theorem LD_C_H : Statement .LD_C_H := fun _ _ => rfl
theorem LD_C_L : Statement .LD_C_L := fun _ _ => rfl
theorem LD_C_atHL : Statement .LD_C_atHL := fun _ _ => rfl
theorem LD_C_A : Statement .LD_C_A := fun _ _ => rfl
theorem LD_D_B : Statement .LD_D_B := fun _ _ => rfl
theorem LD_D_C : Statement .LD_D_C := fun _ _ => rfl
theorem LD_D_D : Statement .LD_D_D := fun _ _ => rfl
theorem LD_D_E : Statement .LD_D_E := fun _ _ => rfl
theorem LD_D_H : Statement .LD_D_H := fun _ _ => rfl
theorem LD_D_L : Statement .LD_D_L := fun _ _ => rfl
theorem LD_D_atHL : Statement .LD_D_atHL := fun _ _ => rfl
theorem LD_D_A : Statement .LD_D_A := fun _ _ => rfl
theorem LD_E_B : Statement .LD_E_B := fun _ _ => rfl
theorem LD_E_C : Statement .LD_E_C := fun _ _ => rfl
theorem LD_E_D : Statement .LD_E_D := fun _ _ => rfl
theorem LD_E_E : Statement .LD_E_E := fun _ _ => rfl
theorem LD_E_H : Statement .LD_E_H := fun _ _ => rfl
theorem LD_E_L : Statement .LD_E_L := fun _ _ => rfl
theorem LD_E_atHL : Statement .LD_E_atHL := fun _ _ => rfl
theorem LD_E_A : Statement .LD_E_A := fun _ _ => rfl
theorem LD_H_B : Statement .LD_H_B := fun _ _ => rfl
theorem LD_H_C : Statement .LD_H_C := fun _ _ => rfl
theorem LD_H_D : Statement .LD_H_D := fun _ _ => rfl
theorem LD_H_E : Statement .LD_H_E := fun _ _ => rfl
theorem LD_H_H : Statement .LD_H_H := fun _ _ => rfl
theorem LD_H_L : Statement .LD_H_L := fun _ _ => rfl
theorem LD_H_atHL : Statement .LD_H_atHL := fun _ _ => rfl
theorem LD_H_A : Statement .LD_H_A := fun _ _ => rfl
theorem LD_L_B : Statement .LD_L_B := fun _ _ => rfl
theorem LD_L_C : Statement .LD_L_C := fun _ _ => rfl
theorem LD_L_D : Statement .LD_L_D := fun _ _ => rfl
theorem LD_L_E : Statement .LD_L_E := fun _ _ => rfl
theorem LD_L_H : Statement .LD_L_H := fun _ _ => rfl
theorem LD_L_L : Statement .LD_L_L := fun _ _ => rfl
theorem LD_L_atHL : Statement .LD_L_atHL := fun _ _ => rfl
theorem LD_L_A : Statement .LD_L_A := fun _ _ => rfl
theorem LD_atHL_B : Statement .LD_atHL_B := fun _ _ => rfl
theorem LD_atHL_C : Statement .LD_atHL_C := fun _ _ => rfl
theorem LD_atHL_D : Statement .LD_atHL_D := fun _ _ => rfl
theorem LD_atHL_E : Statement .LD_atHL_E := fun _ _ => rfl
theorem LD_atHL_H : Statement .LD_atHL_H := fun _ _ => rfl
theorem LD_atHL_L : Statement .LD_atHL_L := fun _ _ => rfl
theorem HALT : Statement .HALT := fun _ _ => rfl
theorem LD_atHL_A : Statement .LD_atHL_A := fun _ _ => rfl
theorem LD_A_B : Statement .LD_A_B := fun _ _ => rfl
theorem LD_A_C : Statement .LD_A_C := fun _ _ => rfl
theorem LD_A_D : Statement .LD_A_D := fun _ _ => rfl
theorem LD_A_E : Statement .LD_A_E := fun _ _ => rfl
theorem LD_A_H : Statement .LD_A_H := fun _ _ => rfl
theorem LD_A_L : Statement .LD_A_L := fun _ _ => rfl
theorem LD_A_atHL : Statement .LD_A_atHL := fun _ _ => rfl
theorem LD_A_A : Statement .LD_A_A := fun _ _ => rfl
theorem ADD_A_B : Statement .ADD_A_B := fun _ _ => rfl
theorem ADD_A_C : Statement .ADD_A_C := fun _ _ => rfl
theorem ADD_A_D : Statement .ADD_A_D := fun _ _ => rfl
theorem ADD_A_E : Statement .ADD_A_E := fun _ _ => rfl
theorem ADD_A_H : Statement .ADD_A_H := fun _ _ => rfl
theorem ADD_A_L : Statement .ADD_A_L := fun _ _ => rfl
theorem ADD_A_atHL : Statement .ADD_A_atHL := fun _ _ => rfl
theorem ADD_A_A : Statement .ADD_A_A := fun _ _ => rfl
theorem ADC_A_B : Statement .ADC_A_B := fun _ _ => rfl
theorem ADC_A_C : Statement .ADC_A_C := fun _ _ => rfl
theorem ADC_A_D : Statement .ADC_A_D := fun _ _ => rfl
theorem ADC_A_E : Statement .ADC_A_E := fun _ _ => rfl
theorem ADC_A_H : Statement .ADC_A_H := fun _ _ => rfl
theorem ADC_A_L : Statement .ADC_A_L := fun _ _ => rfl
theorem ADC_A_atHL : Statement .ADC_A_atHL := fun _ _ => rfl
theorem ADC_A_A : Statement .ADC_A_A := fun _ _ => rfl
theorem SUB_B : Statement .SUB_B := fun _ _ => rfl
theorem SUB_C : Statement .SUB_C := fun _ _ => rfl
theorem SUB_D : Statement .SUB_D := fun _ _ => rfl
theorem SUB_E : Statement .SUB_E := fun _ _ => rfl
theorem SUB_H : Statement .SUB_H := fun _ _ => rfl
theorem SUB_L : Statement .SUB_L := fun _ _ => rfl
theorem SUB_atHL : Statement .SUB_atHL := fun _ _ => rfl
theorem SUB_A : Statement .SUB_A := fun _ _ => rfl
theorem SBC_A_B : Statement .SBC_A_B := fun _ _ => rfl
theorem SBC_A_C : Statement .SBC_A_C := fun _ _ => rfl
theorem SBC_A_D : Statement .SBC_A_D := fun _ _ => rfl
theorem SBC_A_E : Statement .SBC_A_E := fun _ _ => rfl
theorem SBC_A_H : Statement .SBC_A_H := fun _ _ => rfl
theorem SBC_A_L : Statement .SBC_A_L := fun _ _ => rfl
theorem SBC_A_atHL : Statement .SBC_A_atHL := fun _ _ => rfl
theorem SBC_A_A : Statement .SBC_A_A := fun _ _ => rfl
theorem AND_B : Statement .AND_B := fun _ _ => rfl
theorem AND_C : Statement .AND_C := fun _ _ => rfl
theorem AND_D : Statement .AND_D := fun _ _ => rfl
theorem AND_E : Statement .AND_E := fun _ _ => rfl
theorem AND_H : Statement .AND_H := fun _ _ => rfl
theorem AND_L : Statement .AND_L := fun _ _ => rfl
theorem AND_atHL : Statement .AND_atHL := fun _ _ => rfl
theorem AND_A : Statement .AND_A := fun _ _ => rfl
theorem XOR_B : Statement .XOR_B := fun _ _ => rfl
theorem XOR_C : Statement .XOR_C := fun _ _ => rfl
theorem XOR_D : Statement .XOR_D := fun _ _ => rfl
theorem XOR_E : Statement .XOR_E := fun _ _ => rfl
theorem XOR_H : Statement .XOR_H := fun _ _ => rfl
theorem XOR_L : Statement .XOR_L := fun _ _ => rfl
theorem XOR_atHL : Statement .XOR_atHL := fun _ _ => rfl
theorem XOR_A : Statement .XOR_A := fun _ _ => rfl
theorem OR_B : Statement .OR_B := fun _ _ => rfl
theorem OR_C : Statement .OR_C := fun _ _ => rfl
theorem OR_D : Statement .OR_D := fun _ _ => rfl
theorem OR_E : Statement .OR_E := fun _ _ => rfl
theorem OR_H : Statement .OR_H := fun _ _ => rfl
theorem OR_L : Statement .OR_L := fun _ _ => rfl
theorem OR_atHL : Statement .OR_atHL := fun _ _ => rfl
theorem OR_A : Statement .OR_A := fun _ _ => rfl
theorem CP_B : Statement .CP_B := fun _ _ => rfl
theorem CP_C : Statement .CP_C := fun _ _ => rfl
theorem CP_D : Statement .CP_D := fun _ _ => rfl
theorem CP_E : Statement .CP_E := fun _ _ => rfl
theorem CP_H : Statement .CP_H := fun _ _ => rfl
theorem CP_L : Statement .CP_L := fun _ _ => rfl
theorem CP_atHL : Statement .CP_atHL := fun _ _ => rfl
theorem CP_A : Statement .CP_A := fun _ _ => rfl
theorem RET_NZ : Statement .RET_NZ := fun _ _ => rfl
theorem POP_BC : Statement .POP_BC := fun _ _ => rfl
theorem PUSH_BC : Statement .PUSH_BC := fun _ _ => rfl
theorem RST_00h : Statement .RST_00h := fun _ _ => rfl
theorem RET_Z : Statement .RET_Z := fun _ _ => rfl
theorem RET : Statement .RET := fun _ _ => rfl
theorem PREFIX_CB : Statement .PREFIX_CB := fun h => absurd rfl h
theorem RST_08h : Statement .RST_08h := fun _ _ => rfl
theorem RET_NC : Statement .RET_NC := fun _ _ => rfl
theorem POP_DE : Statement .POP_DE := fun _ _ => rfl
theorem ILLEGAL_D3 : Statement .ILLEGAL_D3 := fun _ _ => rfl
theorem PUSH_DE : Statement .PUSH_DE := fun _ _ => rfl
theorem RST_10h : Statement .RST_10h := fun _ _ => rfl
theorem RET_C : Statement .RET_C := fun _ _ => rfl
theorem RETI : Statement .RETI := fun _ _ => rfl
theorem ILLEGAL_DB : Statement .ILLEGAL_DB := fun _ _ => rfl
theorem ILLEGAL_DD : Statement .ILLEGAL_DD := fun _ _ => rfl
theorem RST_18h : Statement .RST_18h := fun _ _ => rfl
theorem POP_HL : Statement .POP_HL := fun _ _ => rfl
theorem LD_atC_A : Statement .LD_atC_A := fun _ _ => rfl
theorem ILLEGAL_E3 : Statement .ILLEGAL_E3 := fun _ _ => rfl
theorem ILLEGAL_E4 : Statement .ILLEGAL_E4 := fun _ _ => rfl
theorem PUSH_HL : Statement .PUSH_HL := fun _ _ => rfl
theorem RST_20h : Statement .RST_20h := fun _ _ => rfl
theorem JP_HL : Statement .JP_HL := fun _ _ => rfl
theorem ILLEGAL_EB : Statement .ILLEGAL_EB := fun _ _ => rfl
theorem ILLEGAL_EC : Statement .ILLEGAL_EC := fun _ _ => rfl
theorem ILLEGAL_ED : Statement .ILLEGAL_ED := fun _ _ => rfl
theorem RST_28h : Statement .RST_28h := fun _ _ => rfl
theorem POP_AF : Statement .POP_AF := fun _ _ => rfl
theorem LD_A_atC : Statement .LD_A_atC := fun _ _ => rfl
theorem DI : Statement .DI := fun _ _ => rfl
theorem ILLEGAL_F4 : Statement .ILLEGAL_F4 := fun _ _ => rfl
theorem PUSH_AF : Statement .PUSH_AF := fun _ _ => rfl
theorem RST_30h : Statement .RST_30h := fun _ _ => rfl
theorem LD_SP_HL : Statement .LD_SP_HL := fun _ _ => rfl
theorem EI : Statement .EI := fun _ _ => rfl
theorem ILLEGAL_FC : Statement .ILLEGAL_FC := fun _ _ => rfl
theorem ILLEGAL_FD : Statement .ILLEGAL_FD := fun _ _ => rfl
theorem RST_38h : Statement .RST_38h := fun _ _ => rfl
theorem RLC_B : Statement .RLC_B := fun _ _ => rfl
theorem RLC_C : Statement .RLC_C := fun _ _ => rfl
theorem RLC_D : Statement .RLC_D := fun _ _ => rfl
theorem RLC_E : Statement .RLC_E := fun _ _ => rfl
theorem RLC_H : Statement .RLC_H := fun _ _ => rfl
theorem RLC_L : Statement .RLC_L := fun _ _ => rfl
theorem RLC_atHL : Statement .RLC_atHL := fun _ _ => rfl
theorem RLC_A : Statement .RLC_A := fun _ _ => rfl
theorem RRC_B : Statement .RRC_B := fun _ _ => rfl
theorem RRC_C : Statement .RRC_C := fun _ _ => rfl
theorem RRC_D : Statement .RRC_D := fun _ _ => rfl
theorem RRC_E : Statement .RRC_E := fun _ _ => rfl
theorem RRC_H : Statement .RRC_H := fun _ _ => rfl
theorem RRC_L : Statement .RRC_L := fun _ _ => rfl
theorem RRC_atHL : Statement .RRC_atHL := fun _ _ => rfl
theorem RRC_A : Statement .RRC_A := fun _ _ => rfl
theorem RL_B : Statement .RL_B := fun _ _ => rfl
theorem RL_C : Statement .RL_C := fun _ _ => rfl
theorem RL_D : Statement .RL_D := fun _ _ => rfl
theorem RL_E : Statement .RL_E := fun _ _ => rfl
theorem RL_H : Statement .RL_H := fun _ _ => rfl
theorem RL_L : Statement .RL_L := fun _ _ => rfl
theorem RL_atHL : Statement .RL_atHL := fun _ _ => rfl
theorem RL_A : Statement .RL_A := fun _ _ => rfl
theorem RR_B : Statement .RR_B := fun _ _ => rfl
theorem RR_C : Statement .RR_C := fun _ _ => rfl
theorem RR_D : Statement .RR_D := fun _ _ => rfl
theorem RR_E : Statement .RR_E := fun _ _ => rfl
theorem RR_H : Statement .RR_H := fun _ _ => rfl
theorem RR_L : Statement .RR_L := fun _ _ => rfl
theorem RR_atHL : Statement .RR_atHL := fun _ _ => rfl
theorem RR_A : Statement .RR_A := fun _ _ => rfl
theorem SLA_B : Statement .SLA_B := fun _ _ => rfl
theorem SLA_C : Statement .SLA_C := fun _ _ => rfl
theorem SLA_D : Statement .SLA_D := fun _ _ => rfl
theorem SLA_E : Statement .SLA_E := fun _ _ => rfl
theorem SLA_H : Statement .SLA_H := fun _ _ => rfl
theorem SLA_L : Statement .SLA_L := fun _ _ => rfl
theorem SLA_atHL : Statement .SLA_atHL := fun _ _ => rfl
theorem SLA_A : Statement .SLA_A := fun _ _ => rfl
theorem SRA_B : Statement .SRA_B := fun _ _ => rfl
theorem SRA_C : Statement .SRA_C := fun _ _ => rfl
theorem SRA_D : Statement .SRA_D := fun _ _ => rfl
theorem SRA_E : Statement .SRA_E := fun _ _ => rfl
theorem SRA_H : Statement .SRA_H := fun _ _ => rfl
theorem SRA_L : Statement .SRA_L := fun _ _ => rfl
theorem SRA_atHL : Statement .SRA_atHL := fun _ _ => rfl
theorem SRA_A : Statement .SRA_A := fun _ _ => rfl
theorem SWAP_B : Statement .SWAP_B := fun _ _ => rfl
theorem SWAP_C : Statement .SWAP_C := fun _ _ => rfl
theorem SWAP_D : Statement .SWAP_D := fun _ _ => rfl
theorem SWAP_E : Statement .SWAP_E := fun _ _ => rfl
theorem SWAP_H : Statement .SWAP_H := fun _ _ => rfl
theorem SWAP_L : Statement .SWAP_L := fun _ _ => rfl
theorem SWAP_atHL : Statement .SWAP_atHL := fun _ _ => rfl
theorem SWAP_A : Statement .SWAP_A := fun _ _ => rfl
theorem SRL_B : Statement .SRL_B := fun _ _ => rfl
theorem SRL_C : Statement .SRL_C := fun _ _ => rfl
theorem SRL_D : Statement .SRL_D := fun _ _ => rfl
theorem SRL_E : Statement .SRL_E := fun _ _ => rfl
theorem SRL_H : Statement .SRL_H := fun _ _ => rfl
theorem SRL_L : Statement .SRL_L := fun _ _ => rfl
theorem SRL_atHL : Statement .SRL_atHL := fun _ _ => rfl
theorem SRL_A : Statement .SRL_A := fun _ _ => rfl
theorem BIT_0_B : Statement .BIT_0_B := fun _ _ => rfl
theorem BIT_0_C : Statement .BIT_0_C := fun _ _ => rfl
theorem BIT_0_D : Statement .BIT_0_D := fun _ _ => rfl
theorem BIT_0_E : Statement .BIT_0_E := fun _ _ => rfl
theorem BIT_0_H : Statement .BIT_0_H := fun _ _ => rfl
theorem BIT_0_L : Statement .BIT_0_L := fun _ _ => rfl
theorem BIT_0_atHL : Statement .BIT_0_atHL := fun _ _ => rfl
theorem BIT_0_A : Statement .BIT_0_A := fun _ _ => rfl
theorem BIT_1_B : Statement .BIT_1_B := fun _ _ => rfl
theorem BIT_1_C : Statement .BIT_1_C := fun _ _ => rfl
theorem BIT_1_D : Statement .BIT_1_D := fun _ _ => rfl
theorem BIT_1_E : Statement .BIT_1_E := fun _ _ => rfl
theorem BIT_1_H : Statement .BIT_1_H := fun _ _ => rfl
theorem BIT_1_L : Statement .BIT_1_L := fun _ _ => rfl
theorem BIT_1_atHL : Statement .BIT_1_atHL := fun _ _ => rfl
theorem BIT_1_A : Statement .BIT_1_A := fun _ _ => rfl
theorem BIT_2_B : Statement .BIT_2_B := fun _ _ => rfl
theorem BIT_2_C : Statement .BIT_2_C := fun _ _ => rfl
theorem BIT_2_D : Statement .BIT_2_D := fun _ _ => rfl
theorem BIT_2_E : Statement .BIT_2_E := fun _ _ => rfl
theorem BIT_2_H : Statement .BIT_2_H := fun _ _ => rfl
theorem BIT_2_L : Statement .BIT_2_L := fun _ _ => rfl
theorem BIT_2_atHL : Statement .BIT_2_atHL := fun _ _ => rfl
theorem BIT_2_A : Statement .BIT_2_A := fun _ _ => rfl
theorem BIT_3_B : Statement .BIT_3_B := fun _ _ => rfl
theorem BIT_3_C : Statement .BIT_3_C := fun _ _ => rfl
theorem BIT_3_D : Statement .BIT_3_D := fun _ _ => rfl
theorem BIT_3_E : Statement .BIT_3_E := fun _ _ => rfl
theorem BIT_3_H : Statement .BIT_3_H := fun _ _ => rfl
theorem BIT_3_L : Statement .BIT_3_L := fun _ _ => rfl
theorem BIT_3_atHL : Statement .BIT_3_atHL := fun _ _ => rfl
theorem BIT_3_A : Statement .BIT_3_A := fun _ _ => rfl
theorem BIT_4_B : Statement .BIT_4_B := fun _ _ => rfl
theorem BIT_4_C : Statement .BIT_4_C := fun _ _ => rfl
theorem BIT_4_D : Statement .BIT_4_D := fun _ _ => rfl
theorem BIT_4_E : Statement .BIT_4_E := fun _ _ => rfl
theorem BIT_4_H : Statement .BIT_4_H := fun _ _ => rfl
theorem BIT_4_L : Statement .BIT_4_L := fun _ _ => rfl
theorem BIT_4_atHL : Statement .BIT_4_atHL := fun _ _ => rfl
theorem BIT_4_A : Statement .BIT_4_A := fun _ _ => rfl
theorem BIT_5_B : Statement .BIT_5_B := fun _ _ => rfl
theorem BIT_5_C : Statement .BIT_5_C := fun _ _ => rfl
theorem BIT_5_D : Statement .BIT_5_D := fun _ _ => rfl
theorem BIT_5_E : Statement .BIT_5_E := fun _ _ => rfl
theorem BIT_5_H : Statement .BIT_5_H := fun _ _ => rfl
theorem BIT_5_L : Statement .BIT_5_L := fun _ _ => rfl
theorem BIT_5_atHL : Statement .BIT_5_atHL := fun _ _ => rfl
theorem BIT_5_A : Statement .BIT_5_A := fun _ _ => rfl
theorem BIT_6_B : Statement .BIT_6_B := fun _ _ => rfl
theorem BIT_6_C : Statement .BIT_6_C := fun _ _ => rfl
theorem BIT_6_D : Statement .BIT_6_D := fun _ _ => rfl
theorem BIT_6_E : Statement .BIT_6_E := fun _ _ => rfl
theorem BIT_6_H : Statement .BIT_6_H := fun _ _ => rfl
theorem BIT_6_L : Statement .BIT_6_L := fun _ _ => rfl
theorem BIT_6_atHL : Statement .BIT_6_atHL := fun _ _ => rfl
theorem BIT_6_A : Statement .BIT_6_A := fun _ _ => rfl
theorem BIT_7_B : Statement .BIT_7_B := fun _ _ => rfl
theorem BIT_7_C : Statement .BIT_7_C := fun _ _ => rfl
theorem BIT_7_D : Statement .BIT_7_D := fun _ _ => rfl
theorem BIT_7_E : Statement .BIT_7_E := fun _ _ => rfl
theorem BIT_7_H : Statement .BIT_7_H := fun _ _ => rfl
theorem BIT_7_L : Statement .BIT_7_L := fun _ _ => rfl
theorem BIT_7_atHL : Statement .BIT_7_atHL := fun _ _ => rfl
theorem BIT_7_A : Statement .BIT_7_A := fun _ _ => rfl
theorem RES_0_B : Statement .RES_0_B := fun _ _ => rfl
theorem RES_0_C : Statement .RES_0_C := fun _ _ => rfl
theorem RES_0_D : Statement .RES_0_D := fun _ _ => rfl
theorem RES_0_E : Statement .RES_0_E := fun _ _ => rfl
theorem RES_0_H : Statement .RES_0_H := fun _ _ => rfl
theorem RES_0_L : Statement .RES_0_L := fun _ _ => rfl
theorem RES_0_atHL : Statement .RES_0_atHL := fun _ _ => rfl
theorem RES_0_A : Statement .RES_0_A := fun _ _ => rfl
theorem RES_1_B : Statement .RES_1_B := fun _ _ => rfl
theorem RES_1_C : Statement .RES_1_C := fun _ _ => rfl
theorem RES_1_D : Statement .RES_1_D := fun _ _ => rfl
theorem RES_1_E : Statement .RES_1_E := fun _ _ => rfl
theorem RES_1_H : Statement .RES_1_H := fun _ _ => rfl
theorem RES_1_L : Statement .RES_1_L := fun _ _ => rfl
theorem RES_1_atHL : Statement .RES_1_atHL := fun _ _ => rfl
theorem RES_1_A : Statement .RES_1_A := fun _ _ => rfl
theorem RES_2_B : Statement .RES_2_B := fun _ _ => rfl
theorem RES_2_C : Statement .RES_2_C := fun _ _ => rfl
theorem RES_2_D : Statement .RES_2_D := fun _ _ => rfl
theorem RES_2_E : Statement .RES_2_E := fun _ _ => rfl
theorem RES_2_H : Statement .RES_2_H := fun _ _ => rfl
theorem RES_2_L : Statement .RES_2_L := fun _ _ => rfl
theorem RES_2_atHL : Statement .RES_2_atHL := fun _ _ => rfl
theorem RES_2_A : Statement .RES_2_A := fun _ _ => rfl
theorem RES_3_B : Statement .RES_3_B := fun _ _ => rfl
theorem RES_3_C : Statement .RES_3_C := fun _ _ => rfl
theorem RES_3_D : Statement .RES_3_D := fun _ _ => rfl
theorem RES_3_E : Statement .RES_3_E := fun _ _ => rfl
theorem RES_3_H : Statement .RES_3_H := fun _ _ => rfl
theorem RES_3_L : Statement .RES_3_L := fun _ _ => rfl
theorem RES_3_atHL : Statement .RES_3_atHL := fun _ _ => rfl
theorem RES_3_A : Statement .RES_3_A := fun _ _ => rfl
theorem RES_4_B : Statement .RES_4_B := fun _ _ => rfl
theorem RES_4_C : Statement .RES_4_C := fun _ _ => rfl
theorem RES_4_D : Statement .RES_4_D := fun _ _ => rfl
theorem RES_4_E : Statement .RES_4_E := fun _ _ => rfl
theorem RES_4_H : Statement .RES_4_H := fun _ _ => rfl
theorem RES_4_L : Statement .RES_4_L := fun _ _ => rfl
theorem RES_4_atHL : Statement .RES_4_atHL := fun _ _ => rfl
theorem RES_4_A : Statement .RES_4_A := fun _ _ => rfl
theorem RES_5_B : Statement .RES_5_B := fun _ _ => rfl
theorem RES_5_C : Statement .RES_5_C := fun _ _ => rfl
theorem RES_5_D : Statement .RES_5_D := fun _ _ => rfl
theorem RES_5_E : Statement .RES_5_E := fun _ _ => rfl
theorem RES_5_H : Statement .RES_5_H := fun _ _ => rfl
theorem RES_5_L : Statement .RES_5_L := fun _ _ => rfl
theorem RES_5_atHL : Statement .RES_5_atHL := fun _ _ => rfl
theorem RES_5_A : Statement .RES_5_A := fun _ _ => rfl
theorem RES_6_B : Statement .RES_6_B := fun _ _ => rfl
theorem RES_6_C : Statement .RES_6_C := fun _ _ => rfl
theorem RES_6_D : Statement .RES_6_D := fun _ _ => rfl
theorem RES_6_E : Statement .RES_6_E := fun _ _ => rfl
theorem RES_6_H : Statement .RES_6_H := fun _ _ => rfl
theorem RES_6_L : Statement .RES_6_L := fun _ _ => rfl
theorem RES_6_atHL : Statement .RES_6_atHL := fun _ _ => rfl
theorem RES_6_A : Statement .RES_6_A := fun _ _ => rfl
theorem RES_7_B : Statement .RES_7_B := fun _ _ => rfl
theorem RES_7_C : Statement .RES_7_C := fun _ _ => rfl
theorem RES_7_D : Statement .RES_7_D := fun _ _ => rfl
theorem RES_7_E : Statement .RES_7_E := fun _ _ => rfl
theorem RES_7_H : Statement .RES_7_H := fun _ _ => rfl
theorem RES_7_L : Statement .RES_7_L := fun _ _ => rfl
theorem RES_7_atHL : Statement .RES_7_atHL := fun _ _ => rfl
theorem RES_7_A : Statement .RES_7_A := fun _ _ => rfl
theorem SET_0_B : Statement .SET_0_B := fun _ _ => rfl
theorem SET_0_C : Statement .SET_0_C := fun _ _ => rfl
theorem SET_0_D : Statement .SET_0_D := fun _ _ => rfl
theorem SET_0_E : Statement .SET_0_E := fun _ _ => rfl
theorem SET_0_H : Statement .SET_0_H := fun _ _ => rfl
theorem SET_0_L : Statement .SET_0_L := fun _ _ => rfl
theorem SET_0_atHL : Statement .SET_0_atHL := fun _ _ => rfl
theorem SET_0_A : Statement .SET_0_A := fun _ _ => rfl
theorem SET_1_B : Statement .SET_1_B := fun _ _ => rfl
theorem SET_1_C : Statement .SET_1_C := fun _ _ => rfl
theorem SET_1_D : Statement .SET_1_D := fun _ _ => rfl
theorem SET_1_E : Statement .SET_1_E := fun _ _ => rfl
theorem SET_1_H : Statement .SET_1_H := fun _ _ => rfl
theorem SET_1_L : Statement .SET_1_L := fun _ _ => rfl
theorem SET_1_atHL : Statement .SET_1_atHL := fun _ _ => rfl
theorem SET_1_A : Statement .SET_1_A := fun _ _ => rfl
theorem SET_2_B : Statement .SET_2_B := fun _ _ => rfl
theorem SET_2_C : Statement .SET_2_C := fun _ _ => rfl
theorem SET_2_D : Statement .SET_2_D := fun _ _ => rfl
theorem SET_2_E : Statement .SET_2_E := fun _ _ => rfl
theorem SET_2_H : Statement .SET_2_H := fun _ _ => rfl
theorem SET_2_L : Statement .SET_2_L := fun _ _ => rfl
theorem SET_2_atHL : Statement .SET_2_atHL := fun _ _ => rfl
theorem SET_2_A : Statement .SET_2_A := fun _ _ => rfl
theorem SET_3_B : Statement .SET_3_B := fun _ _ => rfl
theorem SET_3_C : Statement .SET_3_C := fun _ _ => rfl
theorem SET_3_D : Statement .SET_3_D := fun _ _ => rfl
theorem SET_3_E : Statement .SET_3_E := fun _ _ => rfl
theorem SET_3_H : Statement .SET_3_H := fun _ _ => rfl
theorem SET_3_L : Statement .SET_3_L := fun _ _ => rfl
theorem SET_3_atHL : Statement .SET_3_atHL := fun _ _ => rfl
theorem SET_3_A : Statement .SET_3_A := fun _ _ => rfl
theorem SET_4_B : Statement .SET_4_B := fun _ _ => rfl
theorem SET_4_C : Statement .SET_4_C := fun _ _ => rfl
theorem SET_4_D : Statement .SET_4_D := fun _ _ => rfl
theorem SET_4_E : Statement .SET_4_E := fun _ _ => rfl
theorem SET_4_H : Statement .SET_4_H := fun _ _ => rfl
theorem SET_4_L : Statement .SET_4_L := fun _ _ => rfl
theorem SET_4_atHL : Statement .SET_4_atHL := fun _ _ => rfl
theorem SET_4_A : Statement .SET_4_A := fun _ _ => rfl
theorem SET_5_B : Statement .SET_5_B := fun _ _ => rfl
theorem SET_5_C : Statement .SET_5_C := fun _ _ => rfl
theorem SET_5_D : Statement .SET_5_D := fun _ _ => rfl
theorem SET_5_E : Statement .SET_5_E := fun _ _ => rfl
theorem SET_5_H : Statement .SET_5_H := fun _ _ => rfl
theorem SET_5_L : Statement .SET_5_L := fun _ _ => rfl
theorem SET_5_atHL : Statement .SET_5_atHL := fun _ _ => rfl
theorem SET_5_A : Statement .SET_5_A := fun _ _ => rfl
theorem SET_6_B : Statement .SET_6_B := fun _ _ => rfl
theorem SET_6_C : Statement .SET_6_C := fun _ _ => rfl
theorem SET_6_D : Statement .SET_6_D := fun _ _ => rfl
theorem SET_6_E : Statement .SET_6_E := fun _ _ => rfl
theorem SET_6_H : Statement .SET_6_H := fun _ _ => rfl
theorem SET_6_L : Statement .SET_6_L := fun _ _ => rfl
theorem SET_6_atHL : Statement .SET_6_atHL := fun _ _ => rfl
theorem SET_6_A : Statement .SET_6_A := fun _ _ => rfl
theorem SET_7_B : Statement .SET_7_B := fun _ _ => rfl
theorem SET_7_C : Statement .SET_7_C := fun _ _ => rfl
theorem SET_7_D : Statement .SET_7_D := fun _ _ => rfl
theorem SET_7_E : Statement .SET_7_E := fun _ _ => rfl
theorem SET_7_H : Statement .SET_7_H := fun _ _ => rfl
theorem SET_7_L : Statement .SET_7_L := fun _ _ => rfl
theorem SET_7_atHL : Statement .SET_7_atHL := fun _ _ => rfl
theorem SET_7_A : Statement .SET_7_A := fun _ _ => rfl

end Sys2Proof.Laws.RoundTrip
end

