-- ==== Sys2Proof/Laws/Ppu.lean ====
section
/-! SUPPORT. The device steps of a tick: what they keep, and where the display's schedule stands after them. -/

namespace Sys2Proof.Machine

/-! ## The CPU's own state is left alone -/

theorem timerStep_sameCpu (s : State) : s.sameCpu (timerStep s) := timerUpdate_sameCpu _ s

theorem dmaStep_sameCpu (s : State) : s.sameCpu (dmaStep s) := by
  unfold dmaStep
  split <;> exact ⟨rfl, rfl, rfl, rfl, rfl, rfl, rfl, rfl, rfl⟩

theorem lcdStart_sameCpu (s : State) : s.sameCpu (lcdStart s) := by
  unfold lcdStart
  split <;> exact ⟨rfl, rfl, rfl, rfl, rfl, rfl, rfl, rfl, rfl⟩

theorem setMode_sameCpu (m : Nat) (s : State) : s.sameCpu (setMode m s) := by
  unfold setMode
  dsimp only
  split <;> exact ⟨rfl, rfl, rfl, rfl, rfl, rfl, rfl, rfl, rfl⟩

theorem setLY_sameCpu (v : Byte) (s : State) : s.sameCpu (setLY v s) :=
  coincidence_sameCpu { s with ppu := { s.ppu with ly := v } }

theorem vblankEntry_sameCpu (s : State) : s.sameCpu (vblankEntry s) :=
  ⟨rfl, rfl, rfl, rfl, rfl, rfl, rfl, rfl, rfl⟩

theorem frameStart_sameCpu (s : State) : s.sameCpu (frameStart s) :=
  ⟨rfl, rfl, rfl, rfl, rfl, rfl, rfl, rfl, rfl⟩

theorem lineStart_sameCpu (line : Nat) (s : State) : s.sameCpu (lineStart line s) := by
  have h1 : s.sameCpu (if line = 0 then frameStart s else s) := by
    split
    · exact frameStart_sameCpu s
    · exact s.sameCpu_refl
  have h2 : ∀ (c : Prop) [Decidable c] (m : Nat) (t : State), t.sameCpu (if c then setMode m t else t) := by
    intro c _ m t
    split
    · exact setMode_sameCpu m t
    · exact t.sameCpu_refl
  have h3 : ∀ (c : Prop) [Decidable c] (t : State), t.sameCpu (if c then vblankEntry t else t) := by
    intro c _ t
    split
    · exact vblankEntry_sameCpu t
    · exact t.sameCpu_refl
  unfold lineStart
  exact State.sameCpu_trans (State.sameCpu_trans (State.sameCpu_trans (State.sameCpu_trans h1 (h2 _ 2 _))
    (h2 _ 1 _)) (setLY_sameCpu _ _)) (h3 _ _)

theorem lcdAction_sameCpu (p : Nat) (s : State) : s.sameCpu (lcdAction p s) := by
  unfold lcdAction
  split
  · exact lineStart_sameCpu _ s
  split
  · exact State.sameCpu_trans (setMode_sameCpu 3 s) ⟨rfl, rfl, rfl, rfl, rfl, rfl, rfl, rfl, rfl⟩
  split
  · exact setMode_sameCpu 0 s
  · exact s.sameCpu_refl

theorem lcdStep_sameCpu (s : State) : s.sameCpu (lcdStep s) := by
  unfold lcdStep
  split
  · exact lcdAction_sameCpu _ s
  · exact s.sameCpu_refl

/-- R420: the device steps leave the CPU's own state, the tick and the platform. -/
theorem devicesStep_sameCpu (s : State) : s.sameCpu (devicesStep s) :=
  State.sameCpu_trans (timerStep_sameCpu s) (State.sameCpu_trans (dmaStep_sameCpu _)
    (State.sameCpu_trans (lcdStart_sameCpu _) (lcdStep_sameCpu _)))

/-- R86: the device steps leave the boot bit. -/
@[simp] theorem devicesStep_bootActive (s : State) : (devicesStep s).bootActive = s.bootActive := by
  have hl : ∀ (line : Nat) (t : State), (lineStart line t).bootActive = t.bootActive := by
    intro line t
    simp only [lineStart, setLY, setMode, vblankEntry, frameStart]
    split_ifs <;> simp
  have ha : ∀ (p : Nat) (t : State), (lcdAction p t).bootActive = t.bootActive := by
    intro p t
    simp only [lcdAction, pixelTransfer, setMode]
    split_ifs <;> simp [hl]
  unfold devicesStep ppuStep lcdStep lcdStart dmaStep timerStep
  split_ifs <;> simp [ha]

/-! ## The renderer reads no status -/

/-- R496: STAT is no part of the sorting order. -/
theorem Ppu.insertSprite_stat (p : Ppu) (v : Byte) (k : Nat) (l : List Nat) :
    ({ p with stat := v } : Ppu).insertSprite k l = p.insertSprite k l := by
  induction l with
  | nil => rfl
  | cons j rest ih => simp only [Ppu.insertSprite, ih]; rfl

theorem Ppu.sortSprites_stat (p : Ppu) (v : Byte) (l : List Nat) :
    ({ p with stat := v } : Ppu).sortSprites l = p.sortSprites l := by
  induction l with
  | nil => rfl
  | cons k rest ih => simp only [Ppu.sortSprites, ih, Ppu.insertSprite_stat]

/-- R493: the finished line does not depend on STAT, so that setting mode 3 first changes nothing in it. -/
theorem Ppu.computeLine_stat (p : Ppu) (v : Byte) (maskBit0 : Bool) (ly : Nat) :
    ({ p with stat := v } : Ppu).computeLine maskBit0 ly = p.computeLine maskBit0 ly := by
  have h : ({ p with stat := v } : Ppu).spritesOnLine ly = p.spritesOnLine ly := Ppu.sortSprites_stat p v _
  unfold Ppu.computeLine
  simp only [h]
  rfl

/-- R450, R493, R495: what the renderer's tick stores. -/
theorem pixelTransfer_stores (line : Nat) (s : State) :
    (pixelTransfer line s).ppu.nextFrame =
      s.ppu.nextFrame.set line (some (s.ppu.computeLine s.platform.obj16MaskBit0 line)) ∧
    (pixelTransfer line s).ppu.winY = s.ppu.nextWinY line := by
  have h : ∀ v : State, v.ppu = { s.ppu with stat := statWithMode s.ppu.stat 3#8 } → v.platform = s.platform →
      v.ppu.nextFrame = s.ppu.nextFrame ∧ v.ppu.nextWinY line = s.ppu.nextWinY line ∧
      v.ppu.computeLine v.platform.obj16MaskBit0 line = s.ppu.computeLine s.platform.obj16MaskBit0 line := by
    intro v hp hq
    rw [hp, hq]
    exact ⟨rfl, rfl, Ppu.computeLine_stat _ _ _ _⟩
  obtain ⟨h1, h2, h3⟩ := h (setMode 3 s) (by unfold setMode; dsimp only; split_ifs <;> rfl)
    (setMode_sameCpu 3 s).2.2.2.2.2.2.2.2
  unfold pixelTransfer
  dsimp only
  rw [h1, h2, h3]
  exact ⟨rfl, rfl⟩

/-! ## The device invariant -/

@[simp] theorem timerStep_ppu (s : State) : (timerStep s).ppu = s.ppu := timerUpdate_ppu _ s
@[simp] theorem timerStep_mem (s : State) : (timerStep s).mem = s.mem := timerUpdate_mem _ s
@[simp] theorem timerStep_hram (s : State) : (timerStep s).hram = s.hram := timerUpdate_hram _ s

theorem timerStep_devOk (s : State) (h : s.DevOk) : (timerStep s).DevOk := by
  simpa [State.DevOk, State.memoriesCanonical, State.memoriesInRange, State.dmaInRange, State.frameShape,
    State.lcdOffQuiet, State.coincidenceSound] using h

theorem dmaStep_devOk (s : State) (h : s.DevOk) : (dmaStep s).DevOk := by
  unfold dmaStep
  split
  · rename_i ha
    obtain ⟨h1, h2, h3, h4, h5, h6, h7⟩ := h
    have hi := h3 ha
    refine ⟨⟨h1.1, h1.2.1, h1.2.2.1, Memory.wf_write h1.2.2.2 _ _⟩,
      ⟨h2.1, h2.2.1, Memory.within_write _ _ _ h2.2.2 (Nat.zero_le _) hi⟩, ?_, h4, h5, h6, h7⟩
    intro hd
    have : s.ppu.dmaIndex + 1 ≠ 160 := of_decide_eq_true hd
    show s.ppu.dmaIndex + 1 < 160
    omega
  · exact h

/-- The copy leaves everything of the picture unit but `Oam` and its cursor. -/
theorem dmaStep_ppu (s : State) : ∃ oam idx act,
    (dmaStep s).ppu = { s.ppu with oam := oam, dmaIndex := idx, dmaActive := act } := by
  unfold dmaStep
  split
  · exact ⟨_, _, _, rfl⟩
  · exact ⟨s.ppu.oam, s.ppu.dmaIndex, s.ppu.dmaActive, rfl⟩

theorem dmaStep_sched (p on : Nat) (s : State) (h : s.SchedAt p ∧ s.ppu.lcdOnCycle = on) :
    (dmaStep s).SchedAt p ∧ (dmaStep s).ppu.lcdOnCycle = on := by
  obtain ⟨oam, idx, act, e⟩ := dmaStep_ppu s
  simpa [State.SchedAt, e] using h

theorem latchRow_length (c r : Nat) (slot : Option (LcdImageLine 160)) : (latchRow c r slot).length = 160 := by
  cases slot <;> simp [latchRow, LcdImageLine.colours]

theorem latchFrom_length (c : Nat) : ∀ (r : Nat) (f : List (Option (LcdImageLine 160))),
    (latchFrom c r f).length = f.length
  | _, [] => rfl
  | r, _ :: rest => by simp [latchFrom, latchFrom_length c (r + 1) rest]

theorem latchFrom_rows (c : Nat) : ∀ (r : Nat) (f : List (Option (LcdImageLine 160))),
    ∀ row ∈ latchFrom c r f, row.length = 160
  | _, [], row, h => by simp [latchFrom] at h
  | r, slot :: rest, row, h => by
    simp only [latchFrom, List.mem_cons] at h
    rcases h with rfl | h
    · exact latchRow_length c r slot
    · exact latchFrom_rows c (r + 1) rest row h

@[simp] theorem setLY_ppu (v : Byte) (s : State) : (setLY v s).ppu =
    { s.ppu with ly := v, stat := setBit s.ppu.stat 2 (decide (v = s.ppu.lyc)) } := by
  simp [setLY]

@[simp] theorem setLY_mem (v : Byte) (s : State) : (setLY v s).mem = s.mem := by simp [setLY]
@[simp] theorem setLY_hram (v : Byte) (s : State) : (setLY v s).hram = s.hram := by simp [setLY]

@[simp] theorem frameStart_ppu (s : State) :
    (frameStart s).ppu = { s.ppu with nextFrame := List.replicate lcdHeight none, winY := 0 } := rfl
@[simp] theorem frameStart_mem (s : State) : (frameStart s).mem = s.mem := rfl
@[simp] theorem frameStart_hram (s : State) : (frameStart s).hram = s.hram := rfl

@[simp] theorem vblankEntry_ppu (s : State) : (vblankEntry s).ppu =
    { s.ppu with currentImage := latchFrom s.cycles 0 s.ppu.nextFrame } := rfl
@[simp] theorem vblankEntry_mem (s : State) : (vblankEntry s).mem = s.mem := rfl
@[simp] theorem vblankEntry_hram (s : State) : (vblankEntry s).hram = s.hram := rfl

/-- A change of STAT's mode bits alone keeps the device invariant while the LCD runs. -/
theorem setMode_devOk (m : Nat) (hm : m < 4) (s : State) (ha : s.ppu.lcdActive = true) (h : s.DevOk) :
    (setMode m s).DevOk := by
  obtain ⟨h1, h2, h3, h4, _, h6, h7⟩ := h
  have hm2 : (BitVec.ofNat 8 m).getLsbD 2 = false := by
    have : m = 0 ∨ m = 1 ∨ m = 2 ∨ m = 3 := by omega
    rcases this with rfl | rfl | rfl | rfl <;> rfl
  refine ⟨?_, ?_, ?_, ?_, ?_, ?_, ?_⟩
  · simpa [State.memoriesCanonical] using h1
  · simpa [State.memoriesInRange] using h2
  · simpa [State.dmaInRange] using h3
  · simpa [State.frameShape] using h4
  · intro hoff
    simp [ha] at hoff
  · simpa using h6
  · unfold State.coincidenceSound at h7 ⊢
    rw [setMode_ppu]
    dsimp only
    rw [statWithMode_get2 _ _ hm2]
    exact h7

/-- The device invariant without the rules of STAT, which the start of a line restores. -/
def State.DevPre (s : State) : Prop :=
  s.memoriesCanonical ∧ s.memoriesInRange ∧ s.dmaInRange ∧ s.frameShape ∧
  (s.ppu.lcdActive = true → s.ppu.lcdc.getLsbD 7 = true)

theorem State.DevOk.pre {s : State} (h : s.DevOk) : s.DevPre :=
  ⟨h.1, h.2.1, h.2.2.1, h.2.2.2.1, h.2.2.2.2.2.1⟩

theorem setLY_devOk (v : Byte) (s : State) (ha : s.ppu.lcdActive = true) (h : s.DevPre) :
    (setLY v s).DevOk := by
  obtain ⟨h1, h2, h3, h4, h6⟩ := h
  refine ⟨?_, ?_, ?_, ?_, ?_, ?_, coincidence_sound _⟩
  · simpa [State.memoriesCanonical] using h1
  · simpa [State.memoriesInRange] using h2
  · simpa [State.dmaInRange] using h3
  · simpa [State.frameShape] using h4
  · intro hoff
    simp [ha] at hoff
  · simpa using h6

theorem frameStart_devPre (s : State) (h : s.DevPre) : (frameStart s).DevPre := by
  obtain ⟨h1, h2, h3, h4, h6⟩ := h
  exact ⟨h1, h2, h3, ⟨by simp [lcdHeight], h4.2⟩, h6⟩

theorem setMode_devPre (m : Nat) (s : State) (h : s.DevPre) : (setMode m s).DevPre := by
  obtain ⟨h1, h2, h3, h4, h6⟩ := h
  refine ⟨?_, ?_, ?_, ?_, ?_⟩
  · simpa [State.memoriesCanonical] using h1
  · simpa [State.memoriesInRange] using h2
  · simpa [State.dmaInRange] using h3
  · simpa [State.frameShape] using h4
  · simpa using h6

theorem vblankEntry_devOk (s : State) (h : s.DevOk) : (vblankEntry s).DevOk := by
  obtain ⟨h1, h2, h3, h4, h5, h6, h7⟩ := h
  refine ⟨h1, h2, h3, ⟨h4.1, ?_, ?_⟩, h5, h6, h7⟩
  · rw [vblankEntry_ppu]
    exact (latchFrom_length _ _ _).trans h4.1
  · rw [vblankEntry_ppu]
    exact latchFrom_rows _ _ _

theorem lineStart_devOk (line : Nat) (s : State) (ha : s.ppu.lcdActive = true) (h : s.DevPre) :
    (lineStart line s).DevOk := by
  have e1 : ∀ (c : Prop) [Decidable c] (t : State), t.ppu.lcdActive = true ∧ t.DevPre →
      (if c then frameStart t else t).ppu.lcdActive = true ∧ (if c then frameStart t else t).DevPre := by
    intro c _ t ht
    split
    · exact ⟨ht.1, frameStart_devPre t ht.2⟩
    · exact ht
  have e2 : ∀ (c : Prop) [Decidable c] (m : Nat) (t : State), t.ppu.lcdActive = true ∧ t.DevPre →
      (if c then setMode m t else t).ppu.lcdActive = true ∧ (if c then setMode m t else t).DevPre := by
    intro c _ m t ht
    split
    · exact ⟨by simpa using ht.1, setMode_devPre m t ht.2⟩
    · exact ht
  have e3 : ∀ (c : Prop) [Decidable c] (t : State), t.DevOk → (if c then vblankEntry t else t).DevOk := by
    intro c _ t ht
    split
    · exact vblankEntry_devOk t ht
    · exact ht
  have h1 := e1 (line = 0) s ⟨ha, h⟩
  have h2 := e2 (line < lcdHeight) 2 _ h1
  have h3 := e2 (line = lcdHeight) 1 _ h2
  have h4 := setLY_devOk (BitVec.ofNat 8 line) _ h3.1 h3.2
  exact e3 _ _ h4

theorem pixelTransfer_devOk (line : Nat) (s : State) (ha : s.ppu.lcdActive = true) (h : s.DevOk) :
    (pixelTransfer line s).DevOk := by
  have h1 := setMode_devOk 3 (by omega) s ha h
  obtain ⟨g1, g2, g3, g4, g5, g6, g7⟩ := h1
  refine ⟨g1, g2, g3, ⟨?_, g4.2⟩, g5, g6, g7⟩
  exact (List.length_set ..).trans g4.1

theorem lcdAction_devOk (p : Nat) (s : State) (ha : s.ppu.lcdActive = true) (h : s.DevOk) :
    (lcdAction p s).DevOk := by
  unfold lcdAction
  split
  · exact lineStart_devOk _ s ha h.pre
  split
  · exact pixelTransfer_devOk _ s ha h
  split
  · exact setMode_devOk 0 (by omega) s ha h
  · exact h

/-- A state in which the LCD has just started is at position 0. -/
theorem lcdStart_cases (s : State) :
    (lcdStart s = s ∧ (s.ppu.lcdActive = false → s.ppu.lcdc.getLsbD 7 = false)) ∨
    (s.ppu.lcdActive = false ∧ s.ppu.lcdc.getLsbD 7 = true ∧
      lcdStart s = { s with ppu := { s.ppu with lcdActive := true, lcdOnCycle := s.cycles } }) := by
  unfold lcdStart
  cases ha : s.ppu.lcdActive <;> cases hc : s.ppu.lcdc.getLsbD 7 <;> simp

theorem lcdStep_devOk (s : State) (h : s.DevOk) : (lcdStep s).DevOk := by
  unfold lcdStep
  split
  · rename_i ha
    exact lcdAction_devOk _ s ha h
  · exact h

/-- The picture unit's step keeps the device invariant. -/
theorem ppuStep_devOk (s : State) (h : s.DevOk) : (ppuStep s).DevOk := by
  have hd := dmaStep_devOk s h
  unfold ppuStep
  generalize dmaStep s = u at hd
  rcases lcdStart_cases u with ⟨e, _⟩ | ⟨ha, hc, e⟩
  · rw [e]
    exact lcdStep_devOk u hd
  · have hp : framePosition (lcdStart u) = 0 := by simp [e, framePosition]
    have hact : (lcdStart u).ppu.lcdActive = true := by simp [e]
    have hpre : (lcdStart u).DevPre := by
      obtain ⟨h1, h2, h3, h4, _, _, _⟩ := hd
      rw [e]
      exact ⟨h1, h2, h3, h4, fun _ => hc⟩
    unfold lcdStep
    rw [if_pos hact, hp]
    exact lineStart_devOk 0 _ hact hpre

/-- R420: the device steps keep the device invariant. -/
theorem devicesStep_devOk (s : State) (h : s.DevOk) : (devicesStep s).DevOk :=
  ppuStep_devOk _ (timerStep_devOk s h)

end Sys2Proof.Machine
end

