-- ==== Sys2Proof/Laws/Schedule.lean ====
section
/-! SUPPORT. The display's schedule (R450, R454): where LY, the mode and the rendered lines stand after the picture
unit's action at each position of the frame. -/

namespace Sys2Proof.Machine

/-- What the start of a line leaves. -/
theorem lineStart_fields (line : Nat) (s : State) :
    (lineStart line s).ppu.ly = BitVec.ofNat 8 line ∧
    (lineStart line s).ppu.stat &&& 3#8 =
      (if line < lcdHeight then 2#8 else if line = lcdHeight then 1#8 else s.ppu.stat &&& 3#8) ∧
    (lineStart line s).ppu.nextFrame = (if line = 0 then List.replicate lcdHeight none else s.ppu.nextFrame) ∧
    (lineStart line s).ppu.lcdActive = s.ppu.lcdActive ∧
    (lineStart line s).ppu.lcdOnCycle = s.ppu.lcdOnCycle := by
  unfold lineStart
  dsimp only
  by_cases h0 : line = 0
  · subst h0
    simp [lcdHeight, setBit2_mode, statWithMode_mode]
  · by_cases h1 : line < lcdHeight
    · have h2 : line ≠ lcdHeight := by omega
      simp [h0, h1, h2, setBit2_mode, statWithMode_mode]
    · by_cases h2 : line = lcdHeight
      · subst h2
        simp [h0, setBit2_mode, statWithMode_mode]
      · simp [h0, h1, h2, setBit2_mode]

/-- What the rendering of a line leaves. -/
theorem pixelTransfer_fields (line : Nat) (s : State) :
    (pixelTransfer line s).ppu.ly = s.ppu.ly ∧
    (pixelTransfer line s).ppu.stat &&& 3#8 = 3#8 ∧
    (∃ L, (pixelTransfer line s).ppu.nextFrame = s.ppu.nextFrame.set line (some L)) ∧
    (pixelTransfer line s).ppu.lcdActive = s.ppu.lcdActive ∧
    (pixelTransfer line s).ppu.lcdOnCycle = s.ppu.lcdOnCycle := by
  unfold pixelTransfer
  refine ⟨?_, ?_, ?_, ?_, ?_⟩
  · simp
  · simp [statWithMode_mode]
  · refine ⟨(setMode 3 s).ppu.computeLine (setMode 3 s).platform.obj16MaskBit0 line, ?_⟩
    dsimp only
    rw [setMode_ppu]
  · simp
  · simp

/-- The action at a position keeps the LCD on and the tick it started in. -/
theorem lcdAction_started (p : Nat) (s : State) :
    (lcdAction p s).ppu.lcdActive = s.ppu.lcdActive ∧ (lcdAction p s).ppu.lcdOnCycle = s.ppu.lcdOnCycle := by
  unfold lcdAction
  split
  · exact (lineStart_fields _ s).2.2.2
  split
  · exact (pixelTransfer_fields _ s).2.2.2
  split
  · simp
  · exact ⟨rfl, rfl⟩

theorem getD_set_isSome {α : Type} (f : List (Option α)) (n r : Nat) (L : α) (hn : n < f.length)
    (h : r < n → (f.getD r none).isSome = true) (hr : r < n + 1) :
    ((f.set n (some L)).getD r none).isSome = true := by
  by_cases e : r = n
  · subst e
    simp [List.getD_eq_getElem?_getD, hn]
  · have hrn : r < n := by omega
    have := h hrn
    simpa [List.getD_eq_getElem?_getD, List.getElem?_set_ne (Ne.symm e)] using this

/-- The lines rendered at a position, case by case. -/
theorem linesRendered_cases (p : Nat) :
    (144 ≤ p / 114 ∧ linesRendered p = 144) ∨ (p / 114 < 144 ∧ p % 114 < 20 ∧ linesRendered p = p / 114) ∨
    (p / 114 < 144 ∧ 20 ≤ p % 114 ∧ linesRendered p = p / 114 + 1) := by
  by_cases h1 : 144 ≤ p / 114
  · exact .inl ⟨h1, if_pos h1⟩
  · by_cases h2 : p % 114 < 20
    · exact .inr (.inl ⟨by omega, h2, (if_neg h1).trans (if_pos h2)⟩)
    · exact .inr (.inr ⟨by omega, by omega, (if_neg h1).trans (if_neg h2)⟩)

/-- The mode at a position, case by case. -/
theorem modeAt_cases (p : Nat) :
    (144 ≤ p / 114 ∧ modeAt p = 1#8) ∨ (p / 114 < 144 ∧ p % 114 < 20 ∧ modeAt p = 2#8) ∨
    (p / 114 < 144 ∧ 20 ≤ p % 114 ∧ p % 114 < 63 ∧ modeAt p = 3#8) ∨
    (p / 114 < 144 ∧ 63 ≤ p % 114 ∧ modeAt p = 0#8) := by
  by_cases h1 : 144 ≤ p / 114
  · exact .inl ⟨h1, if_pos h1⟩
  · by_cases h2 : p % 114 < 20
    · exact .inr (.inl ⟨by omega, h2, (if_neg h1).trans (if_pos h2)⟩)
    · by_cases h3 : p % 114 < 63
      · exact .inr (.inr (.inl ⟨by omega, by omega, h3, (if_neg h1).trans ((if_neg h2).trans (if_pos h3))⟩))
      · exact .inr (.inr (.inr ⟨by omega, by omega, (if_neg h1).trans ((if_neg h2).trans (if_neg h3))⟩))

/-- The action at the position after `q` (or at position 0) puts the display on schedule there. -/
theorem lcdAction_sched (p q : Nat) (s : State) (ha : s.ppu.lcdActive = true)
    (hlen : s.ppu.nextFrame.length = 144) (hp : p < frameCycles)
    (hq : p = 0 ∨ (p = q + 1 ∧ s.SchedAt q)) : (lcdAction p s).SchedAt p := by
  intro _
  unfold lcdAction
  by_cases h0 : p % 114 = 0
  · rw [if_pos h0]
    obtain ⟨f1, f2, f3, _, _⟩ := lineStart_fields (p / 114) s
    refine ⟨f1, ?_, ?_⟩
    · rw [f2]
      unfold modeAt
      by_cases h1 : p / 114 < lcdHeight
      · have h2 : ¬ lcdHeight ≤ p / 114 := by omega
        simp [h1, h2, h0]
      · have h2 : lcdHeight ≤ p / 114 := by omega
        by_cases h3 : p / 114 = lcdHeight
        · simp [h3]
        · rw [if_neg h1, if_neg h3, if_pos h2]
          rcases hq with rfl | ⟨rfl, hs⟩
          · simp [lcdHeight] at h2
          · have hm := (hs ha).2.1
            have : lcdHeight ≤ q / 114 := by
              simp only [lcdHeight] at *
              omega
            rw [hm]
            simp [modeAt, this]
    · intro r hr
      rw [f3]
      by_cases h1 : p / 114 = 0
      · simp [linesRendered, h1, h0, lcdHeight] at hr
      · rw [if_neg h1]
        rcases hq with rfl | ⟨rfl, hs⟩
        · simp at h1
        · refine (hs ha).2.2 r ?_
          rcases linesRendered_cases q with h | h | h <;> rcases linesRendered_cases (q + 1) with g | g | g <;> omega
  · rw [if_neg h0]
    have hq' : p = q + 1 ∧ s.SchedAt q := by
      rcases hq with rfl | h
      · simp at h0
      · exact h
    obtain ⟨rfl, hs⟩ := hq'
    obtain ⟨g1, g2, g3⟩ := hs ha
    have hline : (q + 1) / 114 = q / 114 := by omega
    by_cases h20 : (q + 1) % 114 = 20 ∧ (q + 1) / 114 < lcdHeight
    · rw [if_pos h20]
      obtain ⟨f1, f2, ⟨L, f3⟩, _, _⟩ := pixelTransfer_fields ((q + 1) / 114) s
      refine ⟨?_, ?_, ?_⟩
      · rw [f1, g1, hline]
      · rw [f2]
        unfold modeAt
        have h2 : ¬ lcdHeight ≤ (q + 1) / 114 := by omega
        simp [h2, h20.1]
      · intro r hr
        rw [f3]
        refine getD_set_isSome _ _ r L ?_ ?_ ?_
        · simp only [lcdHeight] at h20
          omega
        · intro hlt
          refine g3 r ?_
          have hh : (q + 1) / 114 < 144 := h20.2
          rcases linesRendered_cases q with h | h | h <;> omega
        · have hh : (q + 1) / 114 < 144 := h20.2
          rcases linesRendered_cases (q + 1) with h | h | h <;> omega
    · rw [if_neg h20]
      by_cases h63 : (q + 1) % 114 = 63 ∧ (q + 1) / 114 < lcdHeight
      · rw [if_pos h63]
        refine ⟨?_, ?_, ?_⟩
        · simp [g1, hline]
        · rw [setMode_ppu]
          dsimp only
          rw [statWithMode_mode]
          have h2 : ¬ lcdHeight ≤ (q + 1) / 114 := by omega
          simp [modeAt, h2, h63.1]
        · intro r hr
          rw [setMode_ppu]
          refine g3 r ?_
          have hh : (q + 1) / 114 < 144 := h63.2
          rcases linesRendered_cases q with h | h | h <;> rcases linesRendered_cases (q + 1) with g | g | g <;> omega
      · rw [if_neg h63]
        refine ⟨?_, ?_, ?_⟩
        · rw [g1, hline]
        · rw [g2]
          simp only [lcdHeight] at h20 h63
          rcases modeAt_cases q with ⟨a, e⟩ | ⟨a, b, e⟩ | ⟨a, b, c, e⟩ | ⟨a, b, e⟩ <;>
            rcases modeAt_cases (q + 1) with ⟨a', e'⟩ | ⟨a', b', e'⟩ | ⟨a', b', c', e'⟩ | ⟨a', b', e'⟩ <;>
            first
              | (exfalso; omega)
              | rw [e, e']
        · intro r hr
          refine g3 r ?_
          simp only [lcdHeight] at h20
          rcases linesRendered_cases q with h | h | h <;> rcases linesRendered_cases (q + 1) with g | g | g <;> omega

end Sys2Proof.Machine
end

