-- ==== Sys2Proof/Laws/Step.lean ====
section
/-! SUPPORT. What a step can do, said once: the devices' steps, then a CPU step with `CpuPost`, then the count. -/

namespace Sys2Proof.Machine

/-- No bus write moves the tick in which the LCD was turned on. -/
theorem Component.write_lcdOnCycle (c : Component) (a : Word) (d : Byte) (s : State) :
    (c.write a d s).ppu.lcdOnCycle = s.ppu.lcdOnCycle := by
  cases c
  · simp only [Component.write]; split_ifs <;> rfl
  · simp only [Component.write]; split_ifs <;> simp [writeDiv, writeTac, writeTima, writeTma]
  · simp only [Component.write]; split_ifs
    · rfl
    · rfl
    · split
      · rename_i r _; cases r <;> simp [writePpuReg, dmaStart, lcdOff]; split_ifs <;> simp
      · rfl
  · simp only [Component.write]; split_ifs <;> rfl
  · rfl
  · simp only [Component.write]; split_ifs <;> rfl

theorem BusReach.lcdOnCycle {s t : State} (h : BusReach s t) : t.ppu.lcdOnCycle = s.ppu.lcdOnCycle := by
  induction h with
  | refl => rfl
  | cpu _ hb _ _ _ ih => obtain ⟨_, _, _, _, h5, _, _⟩ := hb; rw [h5]; exact ih
  | write a d _ ih =>
    rw [← ih]
    exact busWrite_keeps (fun u => u.ppu.lcdOnCycle = _) a d
      (fun c u hu => (Component.write_lcdOnCycle c a d u).trans hu) _ rfl

theorem wake_reach (s : State) : BusReach s (wake s) := by
  unfold wake
  split
  · exact .of_same ⟨rfl, rfl, rfl, rfl, rfl, rfl, rfl⟩ rfl rfl rfl
  · exact .refl

theorem acknowledge_devOk (i : Line) (s : State) (h : s.DevOk) : (acknowledge i s).DevOk := by
  simpa [State.DevOk, State.memoriesCanonical, State.memoriesInRange, State.dmaInRange, State.frameShape,
    State.lcdOffQuiet, State.coincidenceSound, acknowledge] using h

/-- What a CPU step that starts in `d` and ends in `t` keeps: the devices, the schedule, the tick and the platform;
and how far ahead the next boundary is (R397). -/
structure CpuPost (d t : State) : Prop where
  dev : d.DevOk → t.DevOk
  on : t.ppu.lcdOnCycle = d.ppu.lcdOnCycle
  sched : ∀ p, d.SchedAt p → t.SchedAt p
  cyc : t.cycles = d.cycles
  plat : t.platform = d.platform
  boot : d.bootActive = false → t.bootActive = false
  low : d.flagsLowNibbleZero → t.flagsLowNibbleZero
  ahead : d.boundaryAhead → t.halted = false → d.cycles + 1 ≤ t.next ∧ t.next ≤ d.cycles + 6

theorem dispatch_cpuPost (i : Line) (d : State) : CpuPost d (dispatch i d) := by
  have hr : BusReach (acknowledge i d) (dispatch i d) := .transfer _ _ _ (.push16 _ .refl)
  refine ⟨fun h => hr.devOk (acknowledge_devOk i d h), hr.lcdOnCycle.trans rfl,
    fun p h => (hr.sched (p := p) (on := d.ppu.lcdOnCycle)
      ⟨by simpa [State.SchedAt, acknowledge] using h, rfl⟩).1,
    hr.fixed.1.trans rfl, hr.fixed.2.1.trans rfl,
    fun h => hr.bootEnded (h : (acknowledge i d).bootActive = false), ?_, ?_⟩
  · intro h; simpa [State.flagsLowNibbleZero, dispatch, State.transfer, acknowledge] using h
  · intro _ _; simp [dispatch, State.transfer]

theorem exec_cpuPost (i : Instr) (d t : State) (h : exec i d = .next t) : CpuPost d t := by
  have hr := exec_reach i d t h
  refine ⟨hr.devOk, hr.lcdOnCycle, fun p h => (hr.sched (p := p) (on := d.ppu.lcdOnCycle) ⟨h, rfl⟩).1,
    hr.fixed.1, hr.fixed.2.1, hr.bootEnded, ?_, ?_⟩
  · rw [exec_form] at h; exact execForm_low _ _ _ h
  · intro _ ht
    rcases exec_ends i d t h with ⟨h1, h2, h3⟩ | h1
    · omega
    · rw [ht] at h1; simp at h1

theorem runBoundary_cpuPost (d t : State) (h : runBoundary d = .next t) : CpuPost d t := by
  unfold runBoundary at h
  split at h
  · rename_i hc
    cases h
    refine ⟨id, rfl, fun _ h => h, rfl, rfl, id, id, ?_⟩
    intro ha hh
    have := ha hh
    rcases hc with hc | hc
    · rw [hh] at hc; simp at hc
    · omega
  · rename_i hc
    unfold atBoundary at h
    split at h
    · cases h; exact dispatch_cpuPost _ _
    · exact exec_cpuPost _ _ _ h

theorem wake_cpuPost (d t : State) (h : CpuPost (wake d) t) : CpuPost d t := by
  have hr := wake_reach d
  have hf : (wake d).regs = d.regs := by unfold wake; split <;> rfl
  refine ⟨fun hd => h.dev (hr.devOk hd), h.on.trans hr.lcdOnCycle,
    fun p hp => h.sched p (hr.sched (p := p) (on := d.ppu.lcdOnCycle) ⟨hp, rfl⟩).1,
    h.cyc.trans hr.fixed.1, h.plat.trans hr.fixed.2.1, fun hb => h.boot (hr.bootEnded hb),
    fun hl => h.low (by simpa [State.flagsLowNibbleZero, hf] using hl), ?_⟩
  intro ha ht
  have := h.ahead ?_ ht
  · rw [hr.fixed.1] at this; exact this
  · unfold wake
    split
    · intro _; simp
    · exact ha

/-- A step that completes is the devices' steps, a CPU step, and the tick's count (R420). -/
theorem step_cases (s t : State) (h : step s = .next t) :
    s.fault = none ∧ ∃ u, CpuPost (devicesStep s) u ∧ t = { u with cycles := s.cycles + 1 } := by
  unfold step at h
  split at h
  · simp at h
  · rename_i hf
    refine ⟨hf, ?_⟩
    unfold tick at h
    split at h
    · rename_i u hu
      refine ⟨u, ?_, by simpa [State.endTick, eq_comm] using h⟩
      unfold cpuStep at hu
      have : (devicesStep s).fault = none := by
        have := (devicesStep_sameCpu s).2.2.2.2.2.2.1
        rw [this, hf]
      rw [this] at hu
      exact wake_cpuPost _ _ (runBoundary_cpuPost _ _ hu)
    · simp at h
    · simp at h

/-- The devices' steps start the LCD in their own tick or leave it as it is. -/
theorem devicesStep_lcd (s : State) :
    (devicesStep s).ppu.lcdOnCycle = s.ppu.lcdOnCycle ∧ (devicesStep s).ppu.lcdActive = s.ppu.lcdActive ∨
      (devicesStep s).ppu.lcdOnCycle = s.cycles := by
  unfold devicesStep ppuStep
  have hc : (dmaStep (timerStep s)).cycles = s.cycles :=
    (State.sameCpu_trans (timerStep_sameCpu s) (dmaStep_sameCpu _)).2.2.2.2.2.2.2.1
  obtain ⟨oam, idx, act, e⟩ := dmaStep_ppu (timerStep s)
  have step : ∀ u, (lcdStep u).ppu.lcdOnCycle = u.ppu.lcdOnCycle ∧
      (lcdStep u).ppu.lcdActive = u.ppu.lcdActive := by
    intro u; unfold lcdStep; split
    · exact ⟨(lcdAction_started _ u).2, (lcdAction_started _ u).1⟩
    · exact ⟨rfl, rfl⟩
  rcases lcdStart_cases (dmaStep (timerStep s)) with ⟨e1, _⟩ | ⟨_, _, e1⟩
  · left; rw [e1]; simp [step, e]
  · right; rw [e1]; simp [step, hc]

end Sys2Proof.Machine
end

