-- ==== Sys2Proof/Tests/Slice0.lean ====
section
/-! SUPPORT. The model's own tests. Expected results come from spec/: the words of opcode_table.json and of
30_encoding.md, and the vectors of 95_test_vectors.md. The last part gives each statement with hypotheses an input that
meets all of them together. -/

namespace Sys2Proof.Tests

set_option Elab.async false

open Sys2Proof Sys2Proof.Machine

/-! ## Well-formed instructions and decoding -/

/-- R124: the prefix byte is no instruction of its own. -/
theorem test_wf_refuses_prefix : ¬ Instr.PREFIX_CB.WellFormed := by decide

theorem test_wf_accepts : Instr.NOP.WellFormed ∧ Instr.STOP.WellFormed ∧ (Instr.LD_SP_n16 0xFFFF#16).WellFormed := by
  decide

/-- Whether bytes decode to an instruction and nothing is left over. -/
def decodesTo (bytes : List Byte) (i : Instr) : Bool :=
  match decode bytes with
  | .ok (j, []) => decide (j = i)
  | _ => false

/-- Whether bytes do not decode. -/
def rejected (bytes : List Byte) : Bool :=
  match decode bytes with
  | .ok _ => false
  | .error _ => true

/-- No bytes, a prefix byte alone, operand bytes missing. -/
theorem test_decode_rejects :
    (rejected [] && rejected [0xCB] && rejected [0x01] && rejected [0x01, 0x34] && rejected [0x06]) = true := by
  decide +kernel

/-! Every row of opcode_table.json, its operand bytes 5A or 34 12. -/

theorem test_decode_base_00 :
  (decodesTo [0x00] .NOP && decodesTo [0x01, 0x34, 0x12] (.LD_BC_n16 0x1234#16) &&
   decodesTo [0x02] .LD_atBC_A && decodesTo [0x03] .INC_BC && decodesTo [0x04] .INC_B &&
   decodesTo [0x05] .DEC_B && decodesTo [0x06, 0x5A] (.LD_B_n8 0x5A#8) && decodesTo [0x07] .RLCA &&
   decodesTo [0x08, 0x34, 0x12] (.LD_atn16_SP 0x1234#16) && decodesTo [0x09] .ADD_HL_BC &&
   decodesTo [0x0A] .LD_A_atBC && decodesTo [0x0B] .DEC_BC && decodesTo [0x0C] .INC_C &&
   decodesTo [0x0D] .DEC_C && decodesTo [0x0E, 0x5A] (.LD_C_n8 0x5A#8) && decodesTo [0x0F] .RRCA) = true := by decide +kernel

theorem test_decode_base_10 :
  (decodesTo [0x10] .STOP && decodesTo [0x11, 0x34, 0x12] (.LD_DE_n16 0x1234#16) &&
   decodesTo [0x12] .LD_atDE_A && decodesTo [0x13] .INC_DE && decodesTo [0x14] .INC_D &&
   decodesTo [0x15] .DEC_D && decodesTo [0x16, 0x5A] (.LD_D_n8 0x5A#8) && decodesTo [0x17] .RLA &&
   decodesTo [0x18, 0x5A] (.JR_e8 0x5A#8) && decodesTo [0x19] .ADD_HL_DE && decodesTo [0x1A] .LD_A_atDE &&
   decodesTo [0x1B] .DEC_DE && decodesTo [0x1C] .INC_E && decodesTo [0x1D] .DEC_E &&
   decodesTo [0x1E, 0x5A] (.LD_E_n8 0x5A#8) && decodesTo [0x1F] .RRA) = true := by decide +kernel

theorem test_decode_base_20 :
  (decodesTo [0x20, 0x5A] (.JR_NZ_e8 0x5A#8) && decodesTo [0x21, 0x34, 0x12] (.LD_HL_n16 0x1234#16) &&
   decodesTo [0x22] .LD_atHLinc_A && decodesTo [0x23] .INC_HL && decodesTo [0x24] .INC_H &&
   decodesTo [0x25] .DEC_H && decodesTo [0x26, 0x5A] (.LD_H_n8 0x5A#8) && decodesTo [0x27] .DAA &&
   decodesTo [0x28, 0x5A] (.JR_Z_e8 0x5A#8) && decodesTo [0x29] .ADD_HL_HL &&
   decodesTo [0x2A] .LD_A_atHLinc && decodesTo [0x2B] .DEC_HL && decodesTo [0x2C] .INC_L &&
   decodesTo [0x2D] .DEC_L && decodesTo [0x2E, 0x5A] (.LD_L_n8 0x5A#8) && decodesTo [0x2F] .CPL) = true := by decide +kernel

theorem test_decode_base_30 :
  (decodesTo [0x30, 0x5A] (.JR_NC_e8 0x5A#8) && decodesTo [0x31, 0x34, 0x12] (.LD_SP_n16 0x1234#16) &&
   decodesTo [0x32] .LD_atHLdec_A && decodesTo [0x33] .INC_SP && decodesTo [0x34] .INC_atHL &&
   decodesTo [0x35] .DEC_atHL && decodesTo [0x36, 0x5A] (.LD_atHL_n8 0x5A#8) && decodesTo [0x37] .SCF &&
   decodesTo [0x38, 0x5A] (.JR_C_e8 0x5A#8) && decodesTo [0x39] .ADD_HL_SP &&
   decodesTo [0x3A] .LD_A_atHLdec && decodesTo [0x3B] .DEC_SP && decodesTo [0x3C] .INC_A &&
   decodesTo [0x3D] .DEC_A && decodesTo [0x3E, 0x5A] (.LD_A_n8 0x5A#8) && decodesTo [0x3F] .CCF) = true := by decide +kernel

theorem test_decode_base_40 :
  (decodesTo [0x40] .LD_B_B && decodesTo [0x41] .LD_B_C && decodesTo [0x42] .LD_B_D &&
   decodesTo [0x43] .LD_B_E && decodesTo [0x44] .LD_B_H && decodesTo [0x45] .LD_B_L &&
   decodesTo [0x46] .LD_B_atHL && decodesTo [0x47] .LD_B_A && decodesTo [0x48] .LD_C_B &&
   decodesTo [0x49] .LD_C_C && decodesTo [0x4A] .LD_C_D && decodesTo [0x4B] .LD_C_E &&
   decodesTo [0x4C] .LD_C_H && decodesTo [0x4D] .LD_C_L && decodesTo [0x4E] .LD_C_atHL &&
   decodesTo [0x4F] .LD_C_A) = true := by decide +kernel

theorem test_decode_base_50 :
  (decodesTo [0x50] .LD_D_B && decodesTo [0x51] .LD_D_C && decodesTo [0x52] .LD_D_D &&
   decodesTo [0x53] .LD_D_E && decodesTo [0x54] .LD_D_H && decodesTo [0x55] .LD_D_L &&
   decodesTo [0x56] .LD_D_atHL && decodesTo [0x57] .LD_D_A && decodesTo [0x58] .LD_E_B &&
   decodesTo [0x59] .LD_E_C && decodesTo [0x5A] .LD_E_D && decodesTo [0x5B] .LD_E_E &&
   decodesTo [0x5C] .LD_E_H && decodesTo [0x5D] .LD_E_L && decodesTo [0x5E] .LD_E_atHL &&
   decodesTo [0x5F] .LD_E_A) = true := by decide +kernel

theorem test_decode_base_60 :
  (decodesTo [0x60] .LD_H_B && decodesTo [0x61] .LD_H_C && decodesTo [0x62] .LD_H_D &&
   decodesTo [0x63] .LD_H_E && decodesTo [0x64] .LD_H_H && decodesTo [0x65] .LD_H_L &&
   decodesTo [0x66] .LD_H_atHL && decodesTo [0x67] .LD_H_A && decodesTo [0x68] .LD_L_B &&
   decodesTo [0x69] .LD_L_C && decodesTo [0x6A] .LD_L_D && decodesTo [0x6B] .LD_L_E &&
   decodesTo [0x6C] .LD_L_H && decodesTo [0x6D] .LD_L_L && decodesTo [0x6E] .LD_L_atHL &&
   decodesTo [0x6F] .LD_L_A) = true := by decide +kernel

theorem test_decode_base_70 :
  (decodesTo [0x70] .LD_atHL_B && decodesTo [0x71] .LD_atHL_C && decodesTo [0x72] .LD_atHL_D &&
   decodesTo [0x73] .LD_atHL_E && decodesTo [0x74] .LD_atHL_H && decodesTo [0x75] .LD_atHL_L &&
   decodesTo [0x76] .HALT && decodesTo [0x77] .LD_atHL_A && decodesTo [0x78] .LD_A_B &&
   decodesTo [0x79] .LD_A_C && decodesTo [0x7A] .LD_A_D && decodesTo [0x7B] .LD_A_E &&
   decodesTo [0x7C] .LD_A_H && decodesTo [0x7D] .LD_A_L && decodesTo [0x7E] .LD_A_atHL &&
   decodesTo [0x7F] .LD_A_A) = true := by decide +kernel

theorem test_decode_base_80 :
  (decodesTo [0x80] .ADD_A_B && decodesTo [0x81] .ADD_A_C && decodesTo [0x82] .ADD_A_D &&
   decodesTo [0x83] .ADD_A_E && decodesTo [0x84] .ADD_A_H && decodesTo [0x85] .ADD_A_L &&
   decodesTo [0x86] .ADD_A_atHL && decodesTo [0x87] .ADD_A_A && decodesTo [0x88] .ADC_A_B &&
   decodesTo [0x89] .ADC_A_C && decodesTo [0x8A] .ADC_A_D && decodesTo [0x8B] .ADC_A_E &&
   decodesTo [0x8C] .ADC_A_H && decodesTo [0x8D] .ADC_A_L && decodesTo [0x8E] .ADC_A_atHL &&
   decodesTo [0x8F] .ADC_A_A) = true := by decide +kernel

theorem test_decode_base_90 :
  (decodesTo [0x90] .SUB_B && decodesTo [0x91] .SUB_C && decodesTo [0x92] .SUB_D &&
   decodesTo [0x93] .SUB_E && decodesTo [0x94] .SUB_H && decodesTo [0x95] .SUB_L &&
   decodesTo [0x96] .SUB_atHL && decodesTo [0x97] .SUB_A && decodesTo [0x98] .SBC_A_B &&
   decodesTo [0x99] .SBC_A_C && decodesTo [0x9A] .SBC_A_D && decodesTo [0x9B] .SBC_A_E &&
   decodesTo [0x9C] .SBC_A_H && decodesTo [0x9D] .SBC_A_L && decodesTo [0x9E] .SBC_A_atHL &&
   decodesTo [0x9F] .SBC_A_A) = true := by decide +kernel

theorem test_decode_base_A0 :
  (decodesTo [0xA0] .AND_B && decodesTo [0xA1] .AND_C && decodesTo [0xA2] .AND_D &&
   decodesTo [0xA3] .AND_E && decodesTo [0xA4] .AND_H && decodesTo [0xA5] .AND_L &&
   decodesTo [0xA6] .AND_atHL && decodesTo [0xA7] .AND_A && decodesTo [0xA8] .XOR_B &&
   decodesTo [0xA9] .XOR_C && decodesTo [0xAA] .XOR_D && decodesTo [0xAB] .XOR_E &&
   decodesTo [0xAC] .XOR_H && decodesTo [0xAD] .XOR_L && decodesTo [0xAE] .XOR_atHL &&
   decodesTo [0xAF] .XOR_A) = true := by decide +kernel

theorem test_decode_base_B0 :
  (decodesTo [0xB0] .OR_B && decodesTo [0xB1] .OR_C && decodesTo [0xB2] .OR_D && decodesTo [0xB3] .OR_E &&
   decodesTo [0xB4] .OR_H && decodesTo [0xB5] .OR_L && decodesTo [0xB6] .OR_atHL &&
   decodesTo [0xB7] .OR_A && decodesTo [0xB8] .CP_B && decodesTo [0xB9] .CP_C && decodesTo [0xBA] .CP_D &&
   decodesTo [0xBB] .CP_E && decodesTo [0xBC] .CP_H && decodesTo [0xBD] .CP_L &&
   decodesTo [0xBE] .CP_atHL && decodesTo [0xBF] .CP_A) = true := by decide +kernel

theorem test_decode_base_C0 :
  (decodesTo [0xC0] .RET_NZ && decodesTo [0xC1] .POP_BC &&
   decodesTo [0xC2, 0x34, 0x12] (.JP_NZ_n16 0x1234#16) &&
   decodesTo [0xC3, 0x34, 0x12] (.JP_n16 0x1234#16) &&
   decodesTo [0xC4, 0x34, 0x12] (.CALL_NZ_n16 0x1234#16) && decodesTo [0xC5] .PUSH_BC &&
   decodesTo [0xC6, 0x5A] (.ADD_A_n8 0x5A#8) && decodesTo [0xC7] .RST_00h && decodesTo [0xC8] .RET_Z &&
   decodesTo [0xC9] .RET && decodesTo [0xCA, 0x34, 0x12] (.JP_Z_n16 0x1234#16) &&
   decodesTo [0xCC, 0x34, 0x12] (.CALL_Z_n16 0x1234#16) &&
   decodesTo [0xCD, 0x34, 0x12] (.CALL_n16 0x1234#16) && decodesTo [0xCE, 0x5A] (.ADC_A_n8 0x5A#8) &&
   decodesTo [0xCF] .RST_08h) = true := by decide +kernel

theorem test_decode_base_D0 :
  (decodesTo [0xD0] .RET_NC && decodesTo [0xD1] .POP_DE &&
   decodesTo [0xD2, 0x34, 0x12] (.JP_NC_n16 0x1234#16) && decodesTo [0xD3] .ILLEGAL_D3 &&
   decodesTo [0xD4, 0x34, 0x12] (.CALL_NC_n16 0x1234#16) && decodesTo [0xD5] .PUSH_DE &&
   decodesTo [0xD6, 0x5A] (.SUB_n8 0x5A#8) && decodesTo [0xD7] .RST_10h && decodesTo [0xD8] .RET_C &&
   decodesTo [0xD9] .RETI && decodesTo [0xDA, 0x34, 0x12] (.JP_C_n16 0x1234#16) &&
   decodesTo [0xDB] .ILLEGAL_DB && decodesTo [0xDC, 0x34, 0x12] (.CALL_C_n16 0x1234#16) &&
   decodesTo [0xDD] .ILLEGAL_DD && decodesTo [0xDE, 0x5A] (.SBC_A_n8 0x5A#8) && decodesTo [0xDF] .RST_18h) = true := by decide +kernel

theorem test_decode_base_E0 :
  (decodesTo [0xE0, 0x5A] (.LDH_atn8_A 0x5A#8) && decodesTo [0xE1] .POP_HL && decodesTo [0xE2] .LD_atC_A &&
   decodesTo [0xE3] .ILLEGAL_E3 && decodesTo [0xE4] .ILLEGAL_E4 && decodesTo [0xE5] .PUSH_HL &&
   decodesTo [0xE6, 0x5A] (.AND_n8 0x5A#8) && decodesTo [0xE7] .RST_20h &&
   decodesTo [0xE8, 0x5A] (.ADD_SP_e8 0x5A#8) && decodesTo [0xE9] .JP_HL &&
   decodesTo [0xEA, 0x34, 0x12] (.LD_atn16_A 0x1234#16) && decodesTo [0xEB] .ILLEGAL_EB &&
   decodesTo [0xEC] .ILLEGAL_EC && decodesTo [0xED] .ILLEGAL_ED &&
   decodesTo [0xEE, 0x5A] (.XOR_n8 0x5A#8) && decodesTo [0xEF] .RST_28h) = true := by decide +kernel

theorem test_decode_base_F0 :
  (decodesTo [0xF0, 0x5A] (.LDH_A_atn8 0x5A#8) && decodesTo [0xF1] .POP_AF && decodesTo [0xF2] .LD_A_atC &&
   decodesTo [0xF3] .DI && decodesTo [0xF4] .ILLEGAL_F4 && decodesTo [0xF5] .PUSH_AF &&
   decodesTo [0xF6, 0x5A] (.OR_n8 0x5A#8) && decodesTo [0xF7] .RST_30h &&
   decodesTo [0xF8, 0x5A] (.LD_HL_SPe8 0x5A#8) && decodesTo [0xF9] .LD_SP_HL &&
   decodesTo [0xFA, 0x34, 0x12] (.LD_A_atn16 0x1234#16) && decodesTo [0xFB] .EI &&
   decodesTo [0xFC] .ILLEGAL_FC && decodesTo [0xFD] .ILLEGAL_FD && decodesTo [0xFE, 0x5A] (.CP_n8 0x5A#8) &&
   decodesTo [0xFF] .RST_38h) = true := by decide +kernel

theorem test_decode_prefixed_00 :
  (decodesTo [0xCB, 0x00] .RLC_B && decodesTo [0xCB, 0x01] .RLC_C && decodesTo [0xCB, 0x02] .RLC_D &&
   decodesTo [0xCB, 0x03] .RLC_E && decodesTo [0xCB, 0x04] .RLC_H && decodesTo [0xCB, 0x05] .RLC_L &&
   decodesTo [0xCB, 0x06] .RLC_atHL && decodesTo [0xCB, 0x07] .RLC_A && decodesTo [0xCB, 0x08] .RRC_B &&
   decodesTo [0xCB, 0x09] .RRC_C && decodesTo [0xCB, 0x0A] .RRC_D && decodesTo [0xCB, 0x0B] .RRC_E &&
   decodesTo [0xCB, 0x0C] .RRC_H && decodesTo [0xCB, 0x0D] .RRC_L && decodesTo [0xCB, 0x0E] .RRC_atHL &&
   decodesTo [0xCB, 0x0F] .RRC_A) = true := by decide +kernel

theorem test_decode_prefixed_10 :
  (decodesTo [0xCB, 0x10] .RL_B && decodesTo [0xCB, 0x11] .RL_C && decodesTo [0xCB, 0x12] .RL_D &&
   decodesTo [0xCB, 0x13] .RL_E && decodesTo [0xCB, 0x14] .RL_H && decodesTo [0xCB, 0x15] .RL_L &&
   decodesTo [0xCB, 0x16] .RL_atHL && decodesTo [0xCB, 0x17] .RL_A && decodesTo [0xCB, 0x18] .RR_B &&
   decodesTo [0xCB, 0x19] .RR_C && decodesTo [0xCB, 0x1A] .RR_D && decodesTo [0xCB, 0x1B] .RR_E &&
   decodesTo [0xCB, 0x1C] .RR_H && decodesTo [0xCB, 0x1D] .RR_L && decodesTo [0xCB, 0x1E] .RR_atHL &&
   decodesTo [0xCB, 0x1F] .RR_A) = true := by decide +kernel

theorem test_decode_prefixed_20 :
  (decodesTo [0xCB, 0x20] .SLA_B && decodesTo [0xCB, 0x21] .SLA_C && decodesTo [0xCB, 0x22] .SLA_D &&
   decodesTo [0xCB, 0x23] .SLA_E && decodesTo [0xCB, 0x24] .SLA_H && decodesTo [0xCB, 0x25] .SLA_L &&
   decodesTo [0xCB, 0x26] .SLA_atHL && decodesTo [0xCB, 0x27] .SLA_A && decodesTo [0xCB, 0x28] .SRA_B &&
   decodesTo [0xCB, 0x29] .SRA_C && decodesTo [0xCB, 0x2A] .SRA_D && decodesTo [0xCB, 0x2B] .SRA_E &&
   decodesTo [0xCB, 0x2C] .SRA_H && decodesTo [0xCB, 0x2D] .SRA_L && decodesTo [0xCB, 0x2E] .SRA_atHL &&
   decodesTo [0xCB, 0x2F] .SRA_A) = true := by decide +kernel

theorem test_decode_prefixed_30 :
  (decodesTo [0xCB, 0x30] .SWAP_B && decodesTo [0xCB, 0x31] .SWAP_C && decodesTo [0xCB, 0x32] .SWAP_D &&
   decodesTo [0xCB, 0x33] .SWAP_E && decodesTo [0xCB, 0x34] .SWAP_H && decodesTo [0xCB, 0x35] .SWAP_L &&
   decodesTo [0xCB, 0x36] .SWAP_atHL && decodesTo [0xCB, 0x37] .SWAP_A && decodesTo [0xCB, 0x38] .SRL_B &&
   decodesTo [0xCB, 0x39] .SRL_C && decodesTo [0xCB, 0x3A] .SRL_D && decodesTo [0xCB, 0x3B] .SRL_E &&
   decodesTo [0xCB, 0x3C] .SRL_H && decodesTo [0xCB, 0x3D] .SRL_L && decodesTo [0xCB, 0x3E] .SRL_atHL &&
   decodesTo [0xCB, 0x3F] .SRL_A) = true := by decide +kernel

theorem test_decode_prefixed_40 :
  (decodesTo [0xCB, 0x40] .BIT_0_B && decodesTo [0xCB, 0x41] .BIT_0_C && decodesTo [0xCB, 0x42] .BIT_0_D &&
   decodesTo [0xCB, 0x43] .BIT_0_E && decodesTo [0xCB, 0x44] .BIT_0_H && decodesTo [0xCB, 0x45] .BIT_0_L &&
   decodesTo [0xCB, 0x46] .BIT_0_atHL && decodesTo [0xCB, 0x47] .BIT_0_A &&
   decodesTo [0xCB, 0x48] .BIT_1_B && decodesTo [0xCB, 0x49] .BIT_1_C && decodesTo [0xCB, 0x4A] .BIT_1_D &&
   decodesTo [0xCB, 0x4B] .BIT_1_E && decodesTo [0xCB, 0x4C] .BIT_1_H && decodesTo [0xCB, 0x4D] .BIT_1_L &&
   decodesTo [0xCB, 0x4E] .BIT_1_atHL && decodesTo [0xCB, 0x4F] .BIT_1_A) = true := by decide +kernel

theorem test_decode_prefixed_50 :
  (decodesTo [0xCB, 0x50] .BIT_2_B && decodesTo [0xCB, 0x51] .BIT_2_C && decodesTo [0xCB, 0x52] .BIT_2_D &&
   decodesTo [0xCB, 0x53] .BIT_2_E && decodesTo [0xCB, 0x54] .BIT_2_H && decodesTo [0xCB, 0x55] .BIT_2_L &&
   decodesTo [0xCB, 0x56] .BIT_2_atHL && decodesTo [0xCB, 0x57] .BIT_2_A &&
   decodesTo [0xCB, 0x58] .BIT_3_B && decodesTo [0xCB, 0x59] .BIT_3_C && decodesTo [0xCB, 0x5A] .BIT_3_D &&
   decodesTo [0xCB, 0x5B] .BIT_3_E && decodesTo [0xCB, 0x5C] .BIT_3_H && decodesTo [0xCB, 0x5D] .BIT_3_L &&
   decodesTo [0xCB, 0x5E] .BIT_3_atHL && decodesTo [0xCB, 0x5F] .BIT_3_A) = true := by decide +kernel

theorem test_decode_prefixed_60 :
  (decodesTo [0xCB, 0x60] .BIT_4_B && decodesTo [0xCB, 0x61] .BIT_4_C && decodesTo [0xCB, 0x62] .BIT_4_D &&
   decodesTo [0xCB, 0x63] .BIT_4_E && decodesTo [0xCB, 0x64] .BIT_4_H && decodesTo [0xCB, 0x65] .BIT_4_L &&
   decodesTo [0xCB, 0x66] .BIT_4_atHL && decodesTo [0xCB, 0x67] .BIT_4_A &&
   decodesTo [0xCB, 0x68] .BIT_5_B && decodesTo [0xCB, 0x69] .BIT_5_C && decodesTo [0xCB, 0x6A] .BIT_5_D &&
   decodesTo [0xCB, 0x6B] .BIT_5_E && decodesTo [0xCB, 0x6C] .BIT_5_H && decodesTo [0xCB, 0x6D] .BIT_5_L &&
   decodesTo [0xCB, 0x6E] .BIT_5_atHL && decodesTo [0xCB, 0x6F] .BIT_5_A) = true := by decide +kernel

theorem test_decode_prefixed_70 :
  (decodesTo [0xCB, 0x70] .BIT_6_B && decodesTo [0xCB, 0x71] .BIT_6_C && decodesTo [0xCB, 0x72] .BIT_6_D &&
   decodesTo [0xCB, 0x73] .BIT_6_E && decodesTo [0xCB, 0x74] .BIT_6_H && decodesTo [0xCB, 0x75] .BIT_6_L &&
   decodesTo [0xCB, 0x76] .BIT_6_atHL && decodesTo [0xCB, 0x77] .BIT_6_A &&
   decodesTo [0xCB, 0x78] .BIT_7_B && decodesTo [0xCB, 0x79] .BIT_7_C && decodesTo [0xCB, 0x7A] .BIT_7_D &&
   decodesTo [0xCB, 0x7B] .BIT_7_E && decodesTo [0xCB, 0x7C] .BIT_7_H && decodesTo [0xCB, 0x7D] .BIT_7_L &&
   decodesTo [0xCB, 0x7E] .BIT_7_atHL && decodesTo [0xCB, 0x7F] .BIT_7_A) = true := by decide +kernel

theorem test_decode_prefixed_80 :
  (decodesTo [0xCB, 0x80] .RES_0_B && decodesTo [0xCB, 0x81] .RES_0_C && decodesTo [0xCB, 0x82] .RES_0_D &&
   decodesTo [0xCB, 0x83] .RES_0_E && decodesTo [0xCB, 0x84] .RES_0_H && decodesTo [0xCB, 0x85] .RES_0_L &&
   decodesTo [0xCB, 0x86] .RES_0_atHL && decodesTo [0xCB, 0x87] .RES_0_A &&
   decodesTo [0xCB, 0x88] .RES_1_B && decodesTo [0xCB, 0x89] .RES_1_C && decodesTo [0xCB, 0x8A] .RES_1_D &&
   decodesTo [0xCB, 0x8B] .RES_1_E && decodesTo [0xCB, 0x8C] .RES_1_H && decodesTo [0xCB, 0x8D] .RES_1_L &&
   decodesTo [0xCB, 0x8E] .RES_1_atHL && decodesTo [0xCB, 0x8F] .RES_1_A) = true := by decide +kernel

theorem test_decode_prefixed_90 :
  (decodesTo [0xCB, 0x90] .RES_2_B && decodesTo [0xCB, 0x91] .RES_2_C && decodesTo [0xCB, 0x92] .RES_2_D &&
   decodesTo [0xCB, 0x93] .RES_2_E && decodesTo [0xCB, 0x94] .RES_2_H && decodesTo [0xCB, 0x95] .RES_2_L &&
   decodesTo [0xCB, 0x96] .RES_2_atHL && decodesTo [0xCB, 0x97] .RES_2_A &&
   decodesTo [0xCB, 0x98] .RES_3_B && decodesTo [0xCB, 0x99] .RES_3_C && decodesTo [0xCB, 0x9A] .RES_3_D &&
   decodesTo [0xCB, 0x9B] .RES_3_E && decodesTo [0xCB, 0x9C] .RES_3_H && decodesTo [0xCB, 0x9D] .RES_3_L &&
   decodesTo [0xCB, 0x9E] .RES_3_atHL && decodesTo [0xCB, 0x9F] .RES_3_A) = true := by decide +kernel

theorem test_decode_prefixed_A0 :
  (decodesTo [0xCB, 0xA0] .RES_4_B && decodesTo [0xCB, 0xA1] .RES_4_C && decodesTo [0xCB, 0xA2] .RES_4_D &&
   decodesTo [0xCB, 0xA3] .RES_4_E && decodesTo [0xCB, 0xA4] .RES_4_H && decodesTo [0xCB, 0xA5] .RES_4_L &&
   decodesTo [0xCB, 0xA6] .RES_4_atHL && decodesTo [0xCB, 0xA7] .RES_4_A &&
   decodesTo [0xCB, 0xA8] .RES_5_B && decodesTo [0xCB, 0xA9] .RES_5_C && decodesTo [0xCB, 0xAA] .RES_5_D &&
   decodesTo [0xCB, 0xAB] .RES_5_E && decodesTo [0xCB, 0xAC] .RES_5_H && decodesTo [0xCB, 0xAD] .RES_5_L &&
   decodesTo [0xCB, 0xAE] .RES_5_atHL && decodesTo [0xCB, 0xAF] .RES_5_A) = true := by decide +kernel

theorem test_decode_prefixed_B0 :
  (decodesTo [0xCB, 0xB0] .RES_6_B && decodesTo [0xCB, 0xB1] .RES_6_C && decodesTo [0xCB, 0xB2] .RES_6_D &&
   decodesTo [0xCB, 0xB3] .RES_6_E && decodesTo [0xCB, 0xB4] .RES_6_H && decodesTo [0xCB, 0xB5] .RES_6_L &&
   decodesTo [0xCB, 0xB6] .RES_6_atHL && decodesTo [0xCB, 0xB7] .RES_6_A &&
   decodesTo [0xCB, 0xB8] .RES_7_B && decodesTo [0xCB, 0xB9] .RES_7_C && decodesTo [0xCB, 0xBA] .RES_7_D &&
   decodesTo [0xCB, 0xBB] .RES_7_E && decodesTo [0xCB, 0xBC] .RES_7_H && decodesTo [0xCB, 0xBD] .RES_7_L &&
   decodesTo [0xCB, 0xBE] .RES_7_atHL && decodesTo [0xCB, 0xBF] .RES_7_A) = true := by decide +kernel

theorem test_decode_prefixed_C0 :
  (decodesTo [0xCB, 0xC0] .SET_0_B && decodesTo [0xCB, 0xC1] .SET_0_C && decodesTo [0xCB, 0xC2] .SET_0_D &&
   decodesTo [0xCB, 0xC3] .SET_0_E && decodesTo [0xCB, 0xC4] .SET_0_H && decodesTo [0xCB, 0xC5] .SET_0_L &&
   decodesTo [0xCB, 0xC6] .SET_0_atHL && decodesTo [0xCB, 0xC7] .SET_0_A &&
   decodesTo [0xCB, 0xC8] .SET_1_B && decodesTo [0xCB, 0xC9] .SET_1_C && decodesTo [0xCB, 0xCA] .SET_1_D &&
   decodesTo [0xCB, 0xCB] .SET_1_E && decodesTo [0xCB, 0xCC] .SET_1_H && decodesTo [0xCB, 0xCD] .SET_1_L &&
   decodesTo [0xCB, 0xCE] .SET_1_atHL && decodesTo [0xCB, 0xCF] .SET_1_A) = true := by decide +kernel

theorem test_decode_prefixed_D0 :
  (decodesTo [0xCB, 0xD0] .SET_2_B && decodesTo [0xCB, 0xD1] .SET_2_C && decodesTo [0xCB, 0xD2] .SET_2_D &&
   decodesTo [0xCB, 0xD3] .SET_2_E && decodesTo [0xCB, 0xD4] .SET_2_H && decodesTo [0xCB, 0xD5] .SET_2_L &&
   decodesTo [0xCB, 0xD6] .SET_2_atHL && decodesTo [0xCB, 0xD7] .SET_2_A &&
   decodesTo [0xCB, 0xD8] .SET_3_B && decodesTo [0xCB, 0xD9] .SET_3_C && decodesTo [0xCB, 0xDA] .SET_3_D &&
   decodesTo [0xCB, 0xDB] .SET_3_E && decodesTo [0xCB, 0xDC] .SET_3_H && decodesTo [0xCB, 0xDD] .SET_3_L &&
   decodesTo [0xCB, 0xDE] .SET_3_atHL && decodesTo [0xCB, 0xDF] .SET_3_A) = true := by decide +kernel

theorem test_decode_prefixed_E0 :
  (decodesTo [0xCB, 0xE0] .SET_4_B && decodesTo [0xCB, 0xE1] .SET_4_C && decodesTo [0xCB, 0xE2] .SET_4_D &&
   decodesTo [0xCB, 0xE3] .SET_4_E && decodesTo [0xCB, 0xE4] .SET_4_H && decodesTo [0xCB, 0xE5] .SET_4_L &&
   decodesTo [0xCB, 0xE6] .SET_4_atHL && decodesTo [0xCB, 0xE7] .SET_4_A &&
   decodesTo [0xCB, 0xE8] .SET_5_B && decodesTo [0xCB, 0xE9] .SET_5_C && decodesTo [0xCB, 0xEA] .SET_5_D &&
   decodesTo [0xCB, 0xEB] .SET_5_E && decodesTo [0xCB, 0xEC] .SET_5_H && decodesTo [0xCB, 0xED] .SET_5_L &&
   decodesTo [0xCB, 0xEE] .SET_5_atHL && decodesTo [0xCB, 0xEF] .SET_5_A) = true := by decide +kernel

theorem test_decode_prefixed_F0 :
  (decodesTo [0xCB, 0xF0] .SET_6_B && decodesTo [0xCB, 0xF1] .SET_6_C && decodesTo [0xCB, 0xF2] .SET_6_D &&
   decodesTo [0xCB, 0xF3] .SET_6_E && decodesTo [0xCB, 0xF4] .SET_6_H && decodesTo [0xCB, 0xF5] .SET_6_L &&
   decodesTo [0xCB, 0xF6] .SET_6_atHL && decodesTo [0xCB, 0xF7] .SET_6_A &&
   decodesTo [0xCB, 0xF8] .SET_7_B && decodesTo [0xCB, 0xF9] .SET_7_C && decodesTo [0xCB, 0xFA] .SET_7_D &&
   decodesTo [0xCB, 0xFB] .SET_7_E && decodesTo [0xCB, 0xFC] .SET_7_H && decodesTo [0xCB, 0xFD] .SET_7_L &&
   decodesTo [0xCB, 0xFE] .SET_7_atHL && decodesTo [0xCB, 0xFF] .SET_7_A) = true := by decide +kernel

/-! ## Instructions, one tick each (95_test_vectors.md B4) -/

/-- What a vector names. -/
inductive Key where
  | A | F | B | C | D | E | H | L | SP | PC | IME | IE | IF | halted
  | mem (a : Nat)
deriving DecidableEq, Repr

/-- A named part set to a value. -/
def put (s : State) (p : Key × Nat) : State :=
  let b : Byte := BitVec.ofNat 8 p.2
  match p.1 with
  | .A => { s with regs := { s.regs with a := b } }
  | .F => { s with regs := { s.regs with f := b } }
  | .B => { s with regs := { s.regs with b := b } }
  | .C => { s with regs := { s.regs with c := b } }
  | .D => { s with regs := { s.regs with d := b } }
  | .E => { s with regs := { s.regs with e := b } }
  | .H => { s with regs := { s.regs with h := b } }
  | .L => { s with regs := { s.regs with l := b } }
  | .SP => { s with sp := BitVec.ofNat 16 p.2 }
  | .PC => { s with pc := BitVec.ofNat 16 p.2 }
  | .IME => { s with ime := decide (p.2 = 1) }
  | .IE => { s with ie := b }
  | .IF => { s with iflag := b }
  | .halted => { s with halted := decide (p.2 = 1) }
  | .mem a => s.busWrite (BitVec.ofNat 16 a) b

/-- The value of a named part. -/
def get (s : State) : Key → Nat
  | .A => s.regs.a.toNat
  | .F => s.regs.f.toNat
  | .B => s.regs.b.toNat
  | .C => s.regs.c.toNat
  | .D => s.regs.d.toNat
  | .E => s.regs.e.toNat
  | .H => s.regs.h.toNat
  | .L => s.regs.l.toNat
  | .SP => s.sp.toNat
  | .PC => s.pc.toNat
  | .IME => s.ime.toNat
  | .IE => s.ie.toNat
  | .IF => s.iflag.toNat
  | .halted => s.halted.toNat
  | .mem a => (s.busRead (BitVec.ofNat 16 a)).toNat

/-- B4's machine: the bytes at 0xC000, `pc` there, the rest as listed or as after reset. -/
def start (bytes : List Byte) (before : List (Key × Nat)) : State :=
  before.foldl put { State.reset with pc := 0xC000#16, mem := Memory.load [] 0xC000 bytes }

/-- One step: what is listed holds after it, what is not is unchanged, `pc` is past the bytes unless listed, and the
next boundary is at the cost. -/
def vector (bytes : List Byte) (before after : List (Key × Nat)) (cost : Nat) : Bool :=
  match step (start bytes before) with
  | .next t =>
    after.all (fun p => get t p.1 == p.2) && t.next == cost && t.cycles == 1 &&
    [Key.A, .F, .B, .C, .D, .E, .H, .L, .SP, .IME, .IE, .IF, .halted].all (fun k =>
      after.any (fun p => p.1 == k) || get t k == get (start bytes before) k) &&
    (after.any (fun p => p.1 == .PC) || get t .PC == 0xC000 + bytes.length)
  | .fault _ => false
  | .refused _ => false

/-- The fault of one step. -/
def faultIn (o : Host.Outcome State Fault Refusal) (f : Fault) : Bool :=
  match o with
  | .next _ => false
  | .fault g => decide (g = f)
  | .refused _ => false

/-- The state of one step, reset where it gives none. -/
def after (o : Host.Outcome State Fault Refusal) : State :=
  match o with
  | .next t => t
  | .fault _ => State.reset
  | .refused _ => State.reset

/-- B4, R210: LD B,C; LD A,A. -/
theorem test_ldRegReg :
  (vector [0x41] [(.B, 0x11), (.C, 0x22)] [(.B, 0x22), (.C, 0x22), (.F, 0x00)] 1 &&
   vector [0x7F] [(.A, 0x5A), (.F, 0xF0)] [(.A, 0x5A), (.F, 0xF0)] 1) = true := by decide +kernel

/-- B4, R211: LD D,0x9C. -/
theorem test_ldRegImm :
  (vector [0x16, 0x9C] [] [(.D, 0x9C)] 2) = true := by decide +kernel

/-- B4, R212: LD E,(HL). -/
theorem test_ldRegHl :
  (vector [0x5E] [(.H, 0xC1), (.L, 0x23), (.mem 0xC123, 0x77)]
      [(.E, 0x77), (.H, 0xC1), (.L, 0x23)] 2) = true := by decide +kernel

/-- B4, R213, R214: LD (HL),B; LD (HL),0x3C. -/
theorem test_ldHl :
  (vector [0x70] [(.H, 0xC2), (.L, 0x00), (.B, 0xAB)] [(.mem 0xC200, 0xAB)] 2 &&
   vector [0x36, 0x3C] [(.H, 0xC2), (.L, 0x01)] [(.mem 0xC201, 0x3C)] 3 &&
   vector [0x36, 0x3C] [(.H, 0x40), (.L, 0x00)] [(.mem 0x4000, 0x00)] 3) = true := by decide +kernel

/-- B4, R215, R216: LD A,(BC); LD A,(DE). -/
theorem test_ldAInd :
  (vector [0x0A] [(.B, 0xC8), (.C, 0x00), (.mem 0xC800, 0x2F)] [(.A, 0x2F)] 2 &&
   vector [0x1A] [(.D, 0xC8), (.E, 0x01), (.mem 0xC801, 0x5F)] [(.A, 0x5F)] 2) = true := by decide +kernel

/-- B4, R217, R218: LD (BC),A; LD (DE),A. -/
theorem test_ldIndA :
  (vector [0x02] [(.B, 0xC8), (.C, 0x02), (.A, 0x3C)] [(.mem 0xC802, 0x3C)] 2 &&
   vector [0x12] [(.D, 0xC8), (.E, 0x03), (.A, 0x3D)] [(.mem 0xC803, 0x3D)] 2) = true := by decide +kernel

/-- B4, R219, R220: LD A,(HL+); LD A,(HL-). -/
theorem test_ldAHlStep :
  (vector [0x2A] [(.H, 0xC0), (.L, 0xFF), (.mem 0xC0FF, 0x56)] [(.A, 0x56), (.H, 0xC1), (.L, 0x00)] 2 &&
   vector [0x3A] [(.H, 0x00), (.L, 0x00)] [(.A, 0x00), (.H, 0xFF), (.L, 0xFF)] 2) = true := by decide +kernel

/-- B4, R221, R222: LD (HL+),A; LD (HL-),A. -/
theorem test_ldHlStepA :
  (vector [0x22] [(.H, 0xFF), (.L, 0xFF), (.A, 0x1F)] [(.IE, 0x1F), (.H, 0x00), (.L, 0x00)] 2 &&
   vector [0x32] [(.H, 0xC0), (.L, 0x00), (.A, 0x5A)] [(.H, 0xBF), (.L, 0xFF)] 2) = true := by decide +kernel

/-- B4, R223, R224: LDH (0x80),A; LDH A,(0x0F); LDH A,(0x00). -/
theorem test_ldh :
  (vector [0xE0, 0x80] [(.A, 0x77)] [(.mem 0xFF80, 0x77)] 3 &&
   vector [0xF0, 0x0F] [(.IF, 0xE5)] [(.A, 0xE5)] 3 &&
   vector [0xF0, 0x00] [] [(.A, 0xFF)] 3) = true := by decide +kernel

/-- B4, R225, R226: LD (C),A; LD A,(C). -/
theorem test_ldC :
  (vector [0xE2] [(.C, 0xFF), (.A, 0x1F)] [(.IE, 0x1F)] 2 &&
   vector [0xF2] [(.C, 0x04), (.A, 0x55)] [(.A, 0x00)] 2) = true := by decide +kernel

/-- B4, R227, R228: LD (0xC234),A; LD A,(0xC234). -/
theorem test_ldAbs :
  (vector [0xEA, 0x34, 0xC2] [(.A, 0x99)] [(.mem 0xC234, 0x99)] 4 &&
   vector [0xFA, 0x34, 0xC2] [(.mem 0xC234, 0x42)] [(.A, 0x42)] 4) = true := by decide +kernel

/-- B4, R229: LD BC,0x1234; LD SP,0xFFFE. -/
theorem test_ldPairImm :
  (vector [0x01, 0x34, 0x12] [] [(.B, 0x12), (.C, 0x34)] 3 &&
   vector [0x31, 0xFE, 0xFF] [] [(.SP, 0xFFFE)] 3) = true := by decide +kernel

/-- B4, R230: LD (0xC100),SP. -/
theorem test_ldAbsSp :
  (vector [0x08, 0x00, 0xC1] [(.SP, 0xBEEF)]
      [(.mem 0xC100, 0xEF), (.mem 0xC101, 0xBE), (.SP, 0xBEEF)] 5) = true := by decide +kernel

/-- B4, R231: LD SP,HL. -/
theorem test_ldSpHl :
  (vector [0xF9] [(.H, 0xD0), (.L, 0x00)] [(.SP, 0xD000)] 2) = true := by decide +kernel

/-- B4, R232: PUSH BC; PUSH AF; PUSH DE. -/
theorem test_push :
  (vector [0xC5] [(.B, 0x12), (.C, 0x34), (.SP, 0xD000)]
      [(.SP, 0xCFFE), (.mem 0xCFFE, 0x34), (.mem 0xCFFF, 0x12)] 4 &&
   vector [0xF5] [(.A, 0x12), (.F, 0xB0), (.SP, 0xD000)]
      [(.SP, 0xCFFE), (.mem 0xCFFE, 0xB0), (.mem 0xCFFF, 0x12)] 4 &&
   vector [0xD5] [(.D, 0xA5), (.E, 0x5A), (.SP, 0x0001)]
      [(.SP, 0xFFFF), (.IE, 0x5A), (.mem 0x0000, 0x00)] 4) = true := by decide +kernel

/-- B4, R233: POP DE; POP AF; POP HL. -/
theorem test_pop :
  (vector [0xD1] [(.SP, 0xCFFE), (.mem 0xCFFE, 0x34), (.mem 0xCFFF, 0x12)]
      [(.D, 0x12), (.E, 0x34), (.SP, 0xD000)] 3 &&
   vector [0xF1] [(.SP, 0xCFFE), (.mem 0xCFFE, 0xFF), (.mem 0xCFFF, 0x12)]
      [(.A, 0x12), (.F, 0xF0), (.SP, 0xD000)] 3 &&
   vector [0xE1] [(.SP, 0xFFFF), (.IE, 0x1F)] [(.H, 0x00), (.L, 0x1F), (.SP, 0x0001)] 3) = true := by decide +kernel

/-- B4, R250, R251, R252: ADD A,B; ADD A,A; ADD A,0x01; ADD A,(HL). -/
theorem test_add :
  (vector [0x80] [(.A, 0x3A), (.B, 0xC6)] [(.A, 0x00), (.F, 0xB0)] 1 &&
   vector [0x87] [(.A, 0x88)] [(.A, 0x10), (.F, 0x30)] 1 &&
   vector [0xC6, 0x01] [(.A, 0x0F), (.F, 0xF0)] [(.A, 0x10), (.F, 0x20)] 2 &&
   vector [0x86] [(.A, 0xFF), (.H, 0xC8), (.L, 0x00), (.mem 0xC800, 0x01)]
      [(.A, 0x00), (.F, 0xB0)] 2) = true := by decide +kernel

/-- B4, R253, R254, R255: ADC A,C; ADC A,0xFF; ADC A,(HL). -/
theorem test_adc :
  (vector [0x89] [(.A, 0xE1), (.C, 0x0F), (.F, 0x10)] [(.A, 0xF1), (.F, 0x20)] 1 &&
   vector [0xCE, 0xFF] [(.A, 0x00), (.F, 0x10)] [(.A, 0x00), (.F, 0xB0)] 2 &&
   vector [0x8E] [(.A, 0xFF), (.F, 0x10), (.H, 0xC8), (.L, 0x00), (.mem 0xC800, 0xFF)]
      [(.A, 0xFF), (.F, 0x30)] 2) = true := by decide +kernel

/-- B4, R256, R257, R258: SUB B; SUB 0x0F; SUB (HL); SUB A. -/
theorem test_sub :
  (vector [0x90] [(.A, 0x3E), (.B, 0x3E)] [(.A, 0x00), (.F, 0xC0)] 1 &&
   vector [0xD6, 0x0F] [(.A, 0x3E)] [(.A, 0x2F), (.F, 0x60)] 2 &&
   vector [0x96] [(.A, 0x3E), (.H, 0xC8), (.L, 0x00), (.mem 0xC800, 0x40)] [(.A, 0xFE), (.F, 0x50)] 2 &&
   vector [0x97] [(.A, 0x77)] [(.A, 0x00), (.F, 0xC0)] 1) = true := by decide +kernel

/-- B4, R259, R260, R261: SBC A,H; SBC A,0x3A; SBC A,(HL). -/
theorem test_sbc :
  (vector [0x9C] [(.A, 0x3B), (.H, 0x2A), (.F, 0x10)] [(.A, 0x10), (.F, 0x40)] 1 &&
   vector [0xDE, 0x3A] [(.A, 0x3B), (.F, 0x10)] [(.A, 0x00), (.F, 0xC0)] 2 &&
   vector [0x9E] [(.A, 0x00), (.F, 0x10), (.H, 0xC8), (.L, 0x00), (.mem 0xC800, 0xFF)]
      [(.A, 0x00), (.F, 0xF0)] 2) = true := by decide +kernel

/-- B4, R262, R263, R264: CP B; CP 0x3C; CP (HL). -/
theorem test_cp :
  (vector [0xB8] [(.A, 0x3C), (.B, 0x2F)] [(.A, 0x3C), (.F, 0x60)] 1 &&
   vector [0xFE, 0x3C] [(.A, 0x3C)] [(.A, 0x3C), (.F, 0xC0)] 2 &&
   vector [0xBE] [(.A, 0x3C), (.H, 0xC8), (.L, 0x00), (.mem 0xC800, 0x40)]
      [(.A, 0x3C), (.F, 0x50)] 2) = true := by decide +kernel

/-- B4, R265, R266: INC B; INC A; INC (HL). -/
theorem test_inc :
  (vector [0x04] [(.B, 0xFF), (.F, 0x10)] [(.B, 0x00), (.F, 0xB0)] 1 &&
   vector [0x3C] [(.A, 0x0F), (.F, 0x40)] [(.A, 0x10), (.F, 0x20)] 1 &&
   vector [0x34] [(.H, 0xC8), (.L, 0x00), (.mem 0xC800, 0x50)] [(.mem 0xC800, 0x51), (.F, 0x00)] 3 &&
   vector [0x34] [(.H, 0xC8), (.L, 0x00), (.F, 0x10), (.mem 0xC800, 0xFF)]
      [(.mem 0xC800, 0x00), (.F, 0xB0)] 3) = true := by decide +kernel

/-- B4, R267, R268: DEC L; DEC C; DEC (HL). -/
theorem test_dec :
  (vector [0x2D] [(.L, 0x01), (.F, 0x10)] [(.L, 0x00), (.F, 0xD0)] 1 &&
   vector [0x0D] [(.C, 0x00)] [(.C, 0xFF), (.F, 0x60)] 1 &&
   vector [0x35] [(.H, 0xC8), (.L, 0x00), (.mem 0xC800, 0x10)] [(.mem 0xC800, 0x0F), (.F, 0x60)] 3 &&
   vector [0x35] [(.H, 0xC8), (.L, 0x00), (.F, 0x10), (.mem 0xC800, 0x01)]
      [(.mem 0xC800, 0x00), (.F, 0xD0)] 3) = true := by decide +kernel

/-- B4, R269: INC BC; INC SP. -/
theorem test_incPair :
  (vector [0x03] [(.B, 0xFF), (.C, 0xFF), (.F, 0xF0)] [(.B, 0x00), (.C, 0x00), (.F, 0xF0)] 2 &&
   vector [0x33] [(.SP, 0x00FF)] [(.SP, 0x0100), (.F, 0x00)] 2) = true := by decide +kernel

/-- B4, R270: DEC DE; DEC HL. -/
theorem test_decPair :
  (vector [0x1B] [(.D, 0x00), (.E, 0x00)] [(.D, 0xFF), (.E, 0xFF), (.F, 0x00)] 2 &&
   vector [0x2B] [(.H, 0x10), (.L, 0x00)] [(.H, 0x0F), (.L, 0xFF), (.F, 0x00)] 2) = true := by decide +kernel

/-- B4, R271: ADD HL,BC; ADD HL,HL; ADD HL,SP. -/
theorem test_addHl :
  (vector [0x09] [(.H, 0x8A), (.L, 0x23), (.B, 0x06), (.C, 0x05), (.F, 0x80)]
      [(.H, 0x90), (.L, 0x28), (.F, 0xA0)] 2 &&
   vector [0x29] [(.H, 0x8A), (.L, 0x23)] [(.H, 0x14), (.L, 0x46), (.F, 0x30)] 2 &&
   vector [0x39] [(.H, 0x00), (.L, 0x01), (.SP, 0xFFFF), (.F, 0xC0)]
      [(.H, 0x00), (.L, 0x00), (.F, 0xB0)] 2) = true := by decide +kernel

/-- B4, R272: ADD SP,+2; ADD SP,-1; ADD SP,+8. -/
theorem test_addSp :
  (vector [0xE8, 0x02] [(.SP, 0xFFF8), (.F, 0xF0)] [(.SP, 0xFFFA), (.F, 0x00)] 4 &&
   vector [0xE8, 0xFF] [(.SP, 0x0000)] [(.SP, 0xFFFF), (.F, 0x00)] 4 &&
   vector [0xE8, 0xFF] [(.SP, 0x0001)] [(.SP, 0x0000), (.F, 0x30)] 4 &&
   vector [0xE8, 0x08] [(.SP, 0xFFF8)] [(.SP, 0x0000), (.F, 0x30)] 4) = true := by decide +kernel

/-- B4, R273: LD HL,SP+2; LD HL,SP-128. -/
theorem test_ldHlSp :
  (vector [0xF8, 0x02] [(.SP, 0xFFF8)] [(.H, 0xFF), (.L, 0xFA), (.SP, 0xFFF8), (.F, 0x00)] 3 &&
   vector [0xF8, 0x80] [(.SP, 0x0080), (.F, 0xC0)]
      [(.H, 0x00), (.L, 0x00), (.SP, 0x0080), (.F, 0x10)] 3) = true := by decide +kernel

/-- B4, R290, R291, R292: AND B; AND 0x0F; AND (HL); AND A. -/
theorem test_and :
  (vector [0xA0] [(.A, 0x5A), (.B, 0x3F), (.F, 0x50)] [(.A, 0x1A), (.F, 0x20)] 1 &&
   vector [0xE6, 0x0F] [(.A, 0xF0)] [(.A, 0x00), (.F, 0xA0)] 2 &&
   vector [0xA6] [(.A, 0xFF), (.H, 0xC8), (.L, 0x00), (.mem 0xC800, 0x80)] [(.A, 0x80), (.F, 0x20)] 2 &&
   vector [0xA7] [(.A, 0x00)] [(.A, 0x00), (.F, 0xA0)] 1) = true := by decide +kernel

/-- B4, R293, R294, R295: OR C; OR 0x00; OR (HL). -/
theorem test_or :
  (vector [0xB1] [(.A, 0x5A), (.C, 0x0F), (.F, 0xF0)] [(.A, 0x5F), (.F, 0x00)] 1 &&
   vector [0xF6, 0x00] [(.A, 0x00), (.F, 0x70)] [(.A, 0x00), (.F, 0x80)] 2 &&
   vector [0xB6] [(.A, 0x01), (.H, 0xC8), (.L, 0x00), (.mem 0xC800, 0x80)]
      [(.A, 0x81), (.F, 0x00)] 2) = true := by decide +kernel

/-- B4, R296, R297, R298: XOR A; XOR 0xFF; XOR (HL). -/
theorem test_xor :
  (vector [0xAF] [(.A, 0x77), (.F, 0x70)] [(.A, 0x00), (.F, 0x80)] 1 &&
   vector [0xEE, 0xFF] [(.A, 0x0F)] [(.A, 0xF0), (.F, 0x00)] 2 &&
   vector [0xAE] [(.A, 0xFF), (.H, 0xC8), (.L, 0x00), (.mem 0xC800, 0x8A)]
      [(.A, 0x75), (.F, 0x00)] 2) = true := by decide +kernel

/-- B4, R299: CPL. -/
theorem test_cpl :
  (vector [0x2F] [(.A, 0x35), (.F, 0x90)] [(.A, 0xCA), (.F, 0xF0)] 1 &&
   vector [0x2F] [(.A, 0xFF), (.F, 0x00)] [(.A, 0x00), (.F, 0x60)] 1) = true := by decide +kernel

/-- B4, R300, R302: RLCA; RLA. -/
theorem test_rotALeft :
  (vector [0x07] [(.A, 0x85), (.F, 0xE0)] [(.A, 0x0B), (.F, 0x10)] 1 &&
   vector [0x07] [(.A, 0x00), (.F, 0xF0)] [(.A, 0x00), (.F, 0x00)] 1 &&
   vector [0x17] [(.A, 0x95), (.F, 0x10)] [(.A, 0x2B), (.F, 0x10)] 1 &&
   vector [0x17] [(.A, 0x80), (.F, 0x00)] [(.A, 0x00), (.F, 0x10)] 1) = true := by decide +kernel

/-- B4, R301, R303: RRCA; RRA. -/
theorem test_rotARight :
  (vector [0x0F] [(.A, 0x3B)] [(.A, 0x9D), (.F, 0x10)] 1 &&
   vector [0x1F] [(.A, 0x81), (.F, 0x00)] [(.A, 0x40), (.F, 0x10)] 1 &&
   vector [0x1F] [(.A, 0x00), (.F, 0x10)] [(.A, 0x80), (.F, 0x00)] 1) = true := by decide +kernel

/-- B4, R304, R305: RLC B; RLC (HL). -/
theorem test_rlc :
  (vector [0xCB, 0x00] [(.B, 0x85)] [(.B, 0x0B), (.F, 0x10)] 2 &&
   vector [0xCB, 0x06] [(.H, 0xC8), (.L, 0x00), (.mem 0xC800, 0x00)]
      [(.mem 0xC800, 0x00), (.F, 0x80)] 4) = true := by decide +kernel

/-- B4, R306, R307: RRC C; RRC (HL). -/
theorem test_rrc :
  (vector [0xCB, 0x09] [(.C, 0x01)] [(.C, 0x80), (.F, 0x10)] 2 &&
   vector [0xCB, 0x0E] [(.H, 0xC8), (.L, 0x00), (.mem 0xC800, 0x02)]
      [(.mem 0xC800, 0x01), (.F, 0x00)] 4) = true := by decide +kernel

/-- B4, R308, R309: RL D; RL (HL). -/
theorem test_rl :
  (vector [0xCB, 0x12] [(.D, 0x80), (.F, 0x00)] [(.D, 0x00), (.F, 0x90)] 2 &&
   vector [0xCB, 0x16] [(.H, 0xC8), (.L, 0x00), (.F, 0x10), (.mem 0xC800, 0x11)]
      [(.mem 0xC800, 0x23), (.F, 0x00)] 4) = true := by decide +kernel

/-- B4, R310, R311: RR E; RR (HL). -/
theorem test_rr :
  (vector [0xCB, 0x1B] [(.E, 0x01), (.F, 0x00)] [(.E, 0x00), (.F, 0x90)] 2 &&
   vector [0xCB, 0x1E] [(.H, 0xC8), (.L, 0x00), (.F, 0x10), (.mem 0xC800, 0x8A)]
      [(.mem 0xC800, 0xC5), (.F, 0x00)] 4) = true := by decide +kernel

/-- B4, R312, R313: SLA H; SLA (HL). -/
theorem test_sla :
  (vector [0xCB, 0x24] [(.H, 0x80)] [(.H, 0x00), (.F, 0x90)] 2 &&
   vector [0xCB, 0x26] [(.H, 0xC8), (.L, 0x00), (.mem 0xC800, 0x7F)]
      [(.mem 0xC800, 0xFE), (.F, 0x00)] 4) = true := by decide +kernel

/-- B4, R314, R315: SRA L; SRA (HL). -/
theorem test_sra :
  (vector [0xCB, 0x2D] [(.L, 0x8A)] [(.L, 0xC5), (.F, 0x00)] 2 &&
   vector [0xCB, 0x2E] [(.H, 0xC8), (.L, 0x00), (.mem 0xC800, 0x01)]
      [(.mem 0xC800, 0x00), (.F, 0x90)] 4) = true := by decide +kernel

/-- B4, R316, R317: SWAP A; SWAP (HL). -/
theorem test_swap :
  (vector [0xCB, 0x37] [(.A, 0xF1), (.F, 0xF0)] [(.A, 0x1F), (.F, 0x00)] 2 &&
   vector [0xCB, 0x36] [(.H, 0xC8), (.L, 0x00), (.mem 0xC800, 0x00)]
      [(.mem 0xC800, 0x00), (.F, 0x80)] 4) = true := by decide +kernel

/-- B4, R318, R319: SRL A; SRL (HL). -/
theorem test_srl :
  (vector [0xCB, 0x3F] [(.A, 0x01)] [(.A, 0x00), (.F, 0x90)] 2 &&
   vector [0xCB, 0x3E] [(.H, 0xC8), (.L, 0x00), (.mem 0xC800, 0xFF)]
      [(.mem 0xC800, 0x7F), (.F, 0x10)] 4) = true := by decide +kernel

/-- B4, R330, R331: BIT 7,A; BIT 0,B; BIT 3,(HL). -/
theorem test_bit :
  (vector [0xCB, 0x7F] [(.A, 0x80), (.F, 0x10)] [(.A, 0x80), (.F, 0x30)] 2 &&
   vector [0xCB, 0x40] [(.B, 0xFE), (.F, 0x40)] [(.B, 0xFE), (.F, 0xA0)] 2 &&
   vector [0xCB, 0x5E] [(.H, 0xC8), (.L, 0x00), (.F, 0xD0), (.mem 0xC800, 0x08)]
      [(.mem 0xC800, 0x08), (.F, 0x30)] 3) = true := by decide +kernel

/-- B4, R332, R333: RES 0,A; RES 7,(HL); RES 2,(HL). -/
theorem test_res :
  (vector [0xCB, 0x87] [(.A, 0xFF), (.F, 0xF0)] [(.A, 0xFE), (.F, 0xF0)] 2 &&
   vector [0xCB, 0xBE] [(.H, 0xC8), (.L, 0x00), (.mem 0xC800, 0xFF)] [(.mem 0xC800, 0x7F)] 4 &&
   vector [0xCB, 0x96] [(.H, 0xFF), (.L, 0x0F), (.IF, 0x1F)] [(.IF, 0x1B)] 4) = true := by decide +kernel

/-- B4, R334, R335: SET 3,E; SET 7,(HL). -/
theorem test_set :
  (vector [0xCB, 0xDB] [(.E, 0x00)] [(.E, 0x08), (.F, 0x00)] 2 &&
   vector [0xCB, 0xFE] [(.H, 0xC8), (.L, 0x00), (.mem 0xC800, 0x01)]
      [(.mem 0xC800, 0x81)] 4) = true := by decide +kernel

/-- B4, R340: JP 0x0150. -/
theorem test_jp :
  (vector [0xC3, 0x50, 0x01] [] [(.PC, 0x0150)] 4) = true := by decide +kernel

/-- B4, R341: JP NZ,0x0150; JP C,0x0150; JP Z,0x0150. -/
theorem test_jpCond :
  (vector [0xC2, 0x50, 0x01] [(.F, 0x00)] [(.PC, 0x0150)] 4 &&
   vector [0xC2, 0x50, 0x01] [(.F, 0x80)] [(.PC, 0xC003)] 3 &&
   vector [0xDA, 0x50, 0x01] [(.F, 0x10)] [(.PC, 0x0150)] 4 &&
   vector [0xCA, 0x50, 0x01] [(.F, 0x70)] [(.PC, 0xC003)] 3) = true := by decide +kernel

/-- B4, R342: JP HL. -/
theorem test_jpHl :
  (vector [0xE9] [(.H, 0x43), (.L, 0x21)] [(.PC, 0x4321)] 1) = true := by decide +kernel

/-- B4, R343: JR -2; JR +127; JR -128. -/
theorem test_jr :
  (vector [0x18, 0xFE] [] [(.PC, 0xC000)] 3 &&
   vector [0x18, 0x7F] [] [(.PC, 0xC081)] 3 &&
   vector [0x18, 0x80] [] [(.PC, 0xBF82)] 3) = true := by decide +kernel

/-- B4, R344: JR Z,+5; JR NC,-5; JR C,-5. -/
theorem test_jrCond :
  (vector [0x28, 0x05] [(.F, 0x80)] [(.PC, 0xC007)] 3 &&
   vector [0x28, 0x05] [(.F, 0x00)] [(.PC, 0xC002)] 2 &&
   vector [0x30, 0xFB] [(.F, 0x00)] [(.PC, 0xBFFD)] 3 &&
   vector [0x38, 0xFB] [(.F, 0xE0)] [(.PC, 0xC002)] 2) = true := by decide +kernel

/-- B4, R345: CALL 0x1234. -/
theorem test_call :
  (vector [0xCD, 0x34, 0x12] [(.SP, 0xD000)]
      [(.PC, 0x1234), (.SP, 0xCFFE), (.mem 0xCFFE, 0x03), (.mem 0xCFFF, 0xC0)] 6) = true := by decide +kernel

/-- B4, R346: CALL Z,0x1234. -/
theorem test_callCond :
  (vector [0xCC, 0x34, 0x12] [(.SP, 0xD000), (.F, 0x00)] [(.PC, 0xC003), (.SP, 0xD000)] 3 &&
   vector [0xCC, 0x34, 0x12] [(.SP, 0xD000), (.F, 0x80)]
      [(.PC, 0x1234), (.SP, 0xCFFE), (.mem 0xCFFE, 0x03), (.mem 0xCFFF, 0xC0)] 6) = true := by decide +kernel

/-- B4, R347: RET. -/
theorem test_ret :
  (vector [0xC9] [(.SP, 0xCFFE), (.mem 0xCFFE, 0x03), (.mem 0xCFFF, 0xC0)]
      [(.PC, 0xC003), (.SP, 0xD000)] 4) = true := by decide +kernel

/-- B4, R348: RET NC. -/
theorem test_retCond :
  (vector [0xD0] [(.SP, 0xCFFE), (.F, 0x10), (.mem 0xCFFE, 0x03), (.mem 0xCFFF, 0xC0)]
      [(.PC, 0xC001), (.SP, 0xCFFE)] 2 &&
   vector [0xD0] [(.SP, 0xCFFE), (.F, 0x00), (.mem 0xCFFE, 0x03), (.mem 0xCFFF, 0xC0)]
      [(.PC, 0xC003), (.SP, 0xD000)] 5) = true := by decide +kernel

/-- B4, R349: RETI. -/
theorem test_reti :
  (vector [0xD9] [(.SP, 0xCFFE), (.IME, 0x00), (.mem 0xCFFE, 0x03), (.mem 0xCFFF, 0xC0)]
      [(.PC, 0xC003), (.SP, 0xD000), (.IME, 0x01)] 4) = true := by decide +kernel

/-- B4, R350: RST 0x28; RST 0x00; RST 0x38. -/
theorem test_rst :
  (vector [0xEF] [(.SP, 0xD000)] [(.PC, 0x0028), (.SP, 0xCFFE), (.mem 0xCFFE, 0x01), (.mem 0xCFFF, 0xC0)] 4 &&
   vector [0xC7] [(.SP, 0x0000)] [(.PC, 0x0000), (.SP, 0xFFFE), (.IE, 0xC0), (.mem 0xFFFE, 0x01)] 4 &&
   vector [0xFF] [(.SP, 0xD000)]
      [(.PC, 0x0038), (.SP, 0xCFFE), (.mem 0xCFFE, 0x01), (.mem 0xCFFF, 0xC0)] 4) = true := by decide +kernel

/-- B4, R360: NOP. -/
theorem test_nop :
  (vector [0x00] [(.A, 0x12), (.F, 0xF0)] [(.A, 0x12), (.F, 0xF0), (.PC, 0xC001)] 1) = true := by decide +kernel

/-- B4, R361: DAA. -/
theorem test_daa :
  (vector [0x27] [(.A, 0x7D), (.F, 0x00)] [(.A, 0x83), (.F, 0x00)] 1 &&
   vector [0x27] [(.A, 0x4B), (.F, 0x60)] [(.A, 0x45), (.F, 0x40)] 1 &&
   vector [0x27] [(.A, 0x00), (.F, 0x00)] [(.A, 0x00), (.F, 0x80)] 1 &&
   vector [0x27] [(.A, 0x9A), (.F, 0x00)] [(.A, 0x00), (.F, 0x90)] 1 &&
   vector [0x27] [(.A, 0x32), (.F, 0x30)] [(.A, 0x98), (.F, 0x10)] 1 &&
   vector [0x27] [(.A, 0xFF), (.F, 0x70)] [(.A, 0x99), (.F, 0x50)] 1) = true := by decide +kernel

/-- B4, R362: SCF. -/
theorem test_scf :
  (vector [0x37] [(.F, 0xE0)] [(.F, 0x90)] 1 &&
   vector [0x37] [(.F, 0x00)] [(.F, 0x10)] 1) = true := by decide +kernel

/-- B4, R363: CCF. -/
theorem test_ccf :
  (vector [0x3F] [(.F, 0xF0)] [(.F, 0x80)] 1 &&
   vector [0x3F] [(.F, 0x00)] [(.F, 0x10)] 1) = true := by decide +kernel

/-- B4, R364: DI. -/
theorem test_di :
  (vector [0xF3] [(.IME, 0x01)] [(.IME, 0x00)] 1) = true := by decide +kernel

/-- B4, R365: EI. -/
theorem test_ei :
  (vector [0xFB] [(.IME, 0x00)] [(.IME, 0x01)] 1) = true := by decide +kernel

/-- B4, R366: HALT. -/
theorem test_halt :
  (vector [0x76] [] [(.PC, 0xC001), (.halted, 0x01)] 0) = true := by decide +kernel

/-- B4, R367, R368: `STOP` and an unassigned byte fault; the CPU's state is unchanged. -/
theorem test_faults :
    (faultIn (step (start [0x10] [(.A, 0x12)])) (.stopInstruction 0xC000#16) &&
     [0xD3#8, 0xDB#8, 0xDD#8, 0xE3#8, 0xE4#8, 0xEB#8, 0xEC#8, 0xED#8, 0xF4#8, 0xFC#8, 0xFD#8].all (fun b =>
       faultIn (step (start [b] [])) (.illegalOpcode 0xC000#16 b)) &&
     get (runTicks 3 (start [0x10] [(.A, 0x12)])).1 .PC == 0xC000) = true := by
  decide +kernel

/-- R124: the row of the prefix byte: `CB 37` is `SWAP A`. -/
theorem test_prefix_row :
    exec .PREFIX_CB (start [0xCB, 0x37] [(.A, 0xF1)]) = exec .SWAP_A (start [0xCB, 0x37] [(.A, 0xF1)]) := rfl

/-! ## Reset and the host's two questions -/

theorem test_reset :
    (State.reset.pc = 0#16 ∧ State.reset.sp = 0#16 ∧ State.reset.ime = false ∧ State.reset.regs.a = 0#8 ∧
      State.reset.mem.wf = true ∧ State.reset.busRead 0xA000#16 = 0xFF#8) := by decide +kernel

/-- Whether the decoder and the first step after reset agree on a table word: the step's registers and boundary. -/
def runsFirst (nbits w : Nat) (i : Instr) : Bool :=
  decodeTableWord nbits w == some i &&
  match step (State.reset.withFetchWord nbits w), exec i (devicesStep (State.reset.withFetchWord nbits w)) with
  | .next t, .next u => t.regs == u.regs && t.pc == u.pc && t.next == u.next && t.sp == u.sp
  | .fault f, .fault g => f == g
  | _, _ => false

theorem test_withFetchWord :
    (runsFirst 8 0x3C .INC_A && runsFirst 24 0x123431 (.LD_SP_n16 0x1234#16) && runsFirst 16 0xCB37 .SWAP_A &&
     runsFirst 8 0x10 .STOP && runsFirst 8 0xCB .RLC_B) = true := by decide +kernel

/-! ## Interrupts, HALT, timer, picture unit (95_test_vectors.md B5 to B9) -/

/-- B5's machine: `NOP` at 0xC000, `sp = 0xD000`. -/
def irq (ime : Nat) (ie iflag : Byte) : State := start [0x00] [(.SP, 0xD000), (.IME, ime), (.IE, ie.toNat), (.IF, iflag.toNat)]

/-- Dispatch of line `n`: the return address, the stack, IME, the boundary, IF afterwards. -/
def dispatches (ie iflag : Byte) (n : Nat) (left : Byte) : Bool :=
  match step (irq 1 ie iflag) with
  | .next t => t.pc == BitVec.ofNat 16 (0x40 + 8 * n) && t.sp == 0xCFFE#16 && t.busRead 0xCFFE#16 == 0x00#8 &&
      t.busRead 0xCFFF#16 == 0xC0#8 && t.ime == false && t.iflag == left && t.ie == ie && t.next == 5
  | .fault _ => false
  | .refused _ => false

theorem test_dispatch :
    (dispatches 0x1F 0x01 0 0x00 && dispatches 0x1F 0x1F 0 0x1E && dispatches 0x1F 0x14 2 0x10 &&
     dispatches 0x10 0x1F 4 0x0F && dispatches 0x08 0x08 3 0x00 && dispatches 0x02 0x02 1 0x00 &&
     dispatches 0xFF 0xE4 2 0xE0) = true := by decide +kernel

/-- Rows of B5 where nothing is dispatched. -/
theorem test_no_dispatch :
    ((after (step (irq 0 0x1F 0x1F))).pc = 0xC001#16 ∧ (after (step (irq 1 0x00 0x1F))).pc = 0xC001#16 ∧
      (after (step (irq 1 0xE0 0xE0))).pc = 0xC001#16 ∧ (after (step (irq 1 0xE0 0xE0))).iflag = 0xE0#8) := by
  decide +kernel

/-- B6's machine in `HALT` at tick 10, `INC A` next. -/
def halted (ime : Nat) (iflag : Nat) : State :=
  { start [0x76, 0x3C] [(.SP, 0xD000), (.PC, 0xC001), (.IME, ime), (.IE, 0x04), (.IF, iflag), (.halted, 1)] with
    cycles := 10, next := 0 }

/-- B6 a, b: wake with dispatch, wake without, no wake. -/
theorem test_halt_wake :
    ((after (step (halted 1 4))).pc = 0x0050#16 ∧ (after (step (halted 1 4))).next = 15 ∧
      (after (step (halted 1 4))).iflag = 0#8 ∧ (after (step (halted 1 4))).halted = false ∧
      (after (step (halted 0 4))).pc = 0xC002#16 ∧ (after (step (halted 0 4))).regs.a = 1#8 ∧
      (after (step (halted 0 4))).next = 11 ∧ (after (step (halted 0 4))).iflag = 4#8 ∧
      (after (step (halted 1 0))).pc = 0xC001#16 ∧ (after (step (halted 1 0))).halted = true ∧
      (after (step (halted 1 0))).cycles = 11) := by decide +kernel

/-- A state with the timer's registers given. -/
def timed (div16 : Word) (tima tma tac : Byte) : State := { State.reset with timer := ⟨div16, tima, tma, tac⟩ }

/-- B7 T2a, T2b, T3a, T3b, T3c, T3d. -/
theorem test_timer_writes :
    ((timed 0x0008 0x10 0 0x05).busWrite addrDIV 0x77#8).timer = ⟨0, 0x11, 0, 0x05⟩ ∧
    ((timed 0x0004 0x10 0 0x05).busWrite addrDIV 0x77#8).timer = ⟨0, 0x10, 0, 0x05⟩ ∧
    ((timed 0x0008 0xFF 0x42 0x05).busWrite addrTAC 0x01#8).timer = ⟨0x0008, 0x42, 0x42, 0x01⟩ ∧
    ((timed 0x0008 0xFF 0x42 0x05).busWrite addrTAC 0x01#8).iflag = 0x04#8 ∧
    ((timed 0x0008 0x10 0 0x05).busWrite addrTAC 0x04#8).timer.tima = 0x11#8 ∧
    ((timed 0x0208 0x10 0 0x05).busWrite addrTAC 0x04#8).timer.tima = 0x10#8 ∧
    ((timed 0x0008 0x10 0 0x01).busWrite addrTAC 0x05#8).timer.tima = 0x10#8 := by decide +kernel

/-- B7 T4: select 1 increments in the fourth step, not in the third. -/
theorem test_timer_rate :
    (Nat.iterate timerStep 3 (timed 0 0 0 0x05)).timer.tima = 0#8 ∧
    (Nat.iterate timerStep 4 (timed 0 0 0 0x05)).timer.tima = 1#8 := by decide +kernel

/-- B8 PP4: writes with the LCD off. -/
theorem test_lcd_off_writes :
    (State.reset.busWrite 0xFF41#16 0xFF#8).busRead 0xFF41#16 = 0xF8#8 ∧
    (State.reset.busWrite 0xFF44#16 0x55#8).busRead 0xFF44#16 = 0x00#8 ∧
    ((State.reset.busWrite 0xFF41#16 0x40#8).busWrite 0xFF45#16 0#8).ppu.stat = 0x44#8 ∧
    ((State.reset.busWrite 0xFF41#16 0x40#8).busWrite 0xFF45#16 0#8).iflag = 0x02#8 := by decide +kernel

/-- The LCD running on line `ly` in the given tick, STAT, LYC as given. -/
def running (cycles : Nat) (ly stat lyc : Byte) : State :=
  { State.reset with
      cycles := cycles, next := cycles
      ppu := { State.reset.ppu with lcdc := 0x80, stat := stat, ly := ly, lyc := lyc, lcdActive := true } }

/-- B8 PP3: the LCD turned off in line 5. -/
theorem test_lcd_off :
    ((running 633 5 0x4B 0).busWrite 0xFF40#16 0#8).ppu.stat = 0x4C#8 ∧
    ((running 633 5 0x4B 0).busWrite 0xFF40#16 0#8).ppu.ly = 0#8 ∧
    ((running 633 5 0x4B 0).busWrite 0xFF40#16 0#8).iflag = 0x02#8 := by decide +kernel

/-- B8 PP1, ticks 63, 114, 228, 16416. -/
theorem test_lcd_schedule :
    (ppuStep (running 63 0 0x7B 1)).ppu.stat = 0x78#8 ∧ (ppuStep (running 63 0 0x7B 1)).iflag = 0x02#8 ∧
    (ppuStep (running 114 0 0x78 1)).ppu.stat = 0x7E#8 ∧ (ppuStep (running 114 0 0x78 1)).ppu.ly = 1#8 ∧
    (ppuStep (running 228 1 0x7C 1)).ppu.stat = 0x7A#8 ∧
    (ppuStep (running 16416 0x8F 0x78 1)).ppu.stat = 0x79#8 ∧
    (ppuStep (running 16416 0x8F 0x78 1)).iflag = 0x03#8 := by decide +kernel

/-- B8 PP5, the first byte of a copy from 0xC000. -/
theorem test_dma :
    (dmaStep ((State.reset.busWrite 0xC000#16 0x01#8).busWrite 0xFF46#16 0xC0#8)).ppu.oam.read 0 = 0x01#8 ∧
    (dmaStep ((State.reset.busWrite 0xC000#16 0x01#8).busWrite 0xFF46#16 0xC0#8)).ppu.dmaIndex = 1 := by
  decide +kernel

/-- B9's scene, the first two tile rows' line 0, with OAM as given. -/
def scene (lcdc : Byte) (oam : List Byte) : Ppu :=
  { State.reset.ppu with
      lcdc := lcdc, bgp := 0xE4, obp0 := 0xE4, obp1 := 0x1B
      vram := [(0x8010, 0xFF), (0x8020, 0xF0), (0x8021, 0xCC), (0x9800, 2), (0x9801, 1)]
      oam := Memory.load [] 0 oam }

/-- The first pixels of line 0. -/
def pixels (p : Ppu) (n : Nat) : List Nat := (List.range n).map fun x => ((p.computeLine false 0).colour x).toNat

/-- B9 R1, S1, S2, S3, S6. -/
theorem test_render :
    pixels (scene 0x91 []) 18 = [3, 3, 1, 1, 2, 2, 0, 0, 1, 1, 1, 1, 1, 1, 1, 1, 0, 0] ∧
    pixels (scene 0x93 [0x10, 0x0C, 0x02, 0x00]) 16 = [3, 3, 1, 1, 3, 3, 1, 1, 2, 2, 1, 1, 1, 1, 1, 1] ∧
    pixels (scene 0x93 [0x10, 0x0C, 0x02, 0x80]) 16 = [3, 3, 1, 1, 2, 2, 1, 1, 1, 1, 1, 1, 1, 1, 1, 1] ∧
    pixels (scene 0x93 [0x10, 0x0C, 0x02, 0x20]) 16 = [3, 3, 1, 1, 2, 2, 2, 2, 1, 1, 3, 3, 1, 1, 1, 1] ∧
    pixels (scene 0x93 [0x10, 0x05, 0x02, 0x00]) 8 = [1, 2, 2, 1, 2, 2, 0, 0] := by decide +kernel

/-! ## Witnesses: inputs that meet the hypotheses of the statements -/

/-- Whether an outcome is a next state. -/
def isNext (o : Host.Outcome State Fault Refusal) : Bool :=
  match o with
  | .next _ => true
  | .fault _ => false
  | .refused _ => false

theorem exists_next {o : Host.Outcome State Fault Refusal} (h : isNext o = true) : ∃ t, o = .next t := by
  cases o with
  | next t => exact ⟨t, rfl⟩
  | fault f => cases h
  | refused r => cases h

theorem eq_fault {o : Host.Outcome State Fault Refusal} {f : Fault} (h : faultIn o f = true) : o = .fault f := by
  cases o with
  | next t => cases h
  | fault g => exact congrArg _ (of_decide_eq_true h)
  | refused r => cases h

theorem test_witness_EncodeInvertsDecode : decode [0xCB#8, 0x37#8, 0x99#8] = .ok (.SWAP_A, [0x99#8]) := rfl

/-- A state whose boundary it is, interrupts enabled and none pending, with `ADD A,0x5A` at `pc`. -/
def ready : State := start [0xC6, 0x5A] [(.IME, 1), (.IE, 0x1F)]

theorem test_witness_StepRunsTheDecodedInstruction :
    ready.fault = none ∧ ready.halted = false ∧ ready.next = ready.cycles ∧ ready.ime = true ∧
    (devicesStep ready).pend = 0#8 ∧
    decode [(devicesStep ready).busRead ready.pc, (devicesStep ready).busRead (ready.pc + 1#16),
      (devicesStep ready).busRead (ready.pc + 2#16)] = .ok (.ADD_A_n8 0x5A#8, [0x00#8]) :=
  by
  refine ⟨by decide +kernel, by decide +kernel, by decide +kernel, by decide +kernel, by decide +kernel, ?_⟩
  have h : [(devicesStep ready).busRead ready.pc, (devicesStep ready).busRead (ready.pc + 1#16),
      (devicesStep ready).busRead (ready.pc + 2#16)] = [0xC6#8, 0x5A#8, 0x00#8] := by decide +kernel
  rw [h]; rfl

theorem test_witness_EveryInstructionCompletesAtItsTableCost :
    (∀ i ∈ [Instr.HALT, .NOP, .CALL_NZ_n16 0x1234#16, .SET_7_A],
      i.WellFormed ∧ i ≠ .STOP) ∧ (∀ b, Instr.HALT.form ≠ .illegal b) ∧
    (Instr.CALL_NZ_n16 0x1234#16).form.taken ready = true := by
  refine ⟨by decide, fun b h => (nomatch h), by decide +kernel⟩

theorem test_witness_ProgramCounterAdvance :
    (∃ t, exec .NOP ready = .next t) ∧ Instr.NOP.form.target ready = none ∧
    (∃ t, exec (.RST_38h) ready = .next t) ∧ Instr.RST_38h.form.target ready = some 0x38#16 ∧
    Instr.RST_38h.form.calls ready = true := 
  ⟨exists_next (by decide +kernel), rfl, exists_next (by decide +kernel), rfl, rfl⟩

theorem test_witness_RegisterFrame :
    ready.flagsLowNibbleZero ∧ (Instr.ADD_A_n8 0x5A#8).WellFormed ∧ Reg.B ∉ (Instr.ADD_A_n8 0x5A#8).form.writes ∧
    (Instr.ADD_A_n8 0x5A#8).form.writesSp = false ∧ (Instr.ADD_A_n8 0x5A#8).form.writesIme = false ∧
    ∃ t, exec (.ADD_A_n8 0x5A#8) ready = .next t := by
  refine ⟨?_, by decide, by decide, rfl, rfl, exists_next (by decide +kernel)⟩
  show ready.regs.f &&& 0x0F#8 = 0#8
  decide +kernel

/-- A form that stores nothing; one that stores at 0xC800, which leaves 0xC801 untouched, and touches its echo. -/
theorem test_witness_MemoryFrame :
    let s := start [0x77] [(.H, 0xC8)]
    s.memoriesCanonical ∧ Instr.NOP.form.stores s = [] ∧ (∃ t, exec .NOP s = .next t) ∧
    Instr.LD_atHL_A.form.stores s = [0xC800#16] ∧ (∃ t, exec .LD_atHL_A s = .next t) ∧
    0xA000 ≤ (0xC800#16).toNat ∧ (0xC800#16).toNat < 0xFE00 ∧ 0xC800#16 ≠ addrBoot ∧
    s.platform.touches 0xC800#16 0xC801#16 = false ∧ s.platform.touches 0xC800#16 0xE800#16 = true := by
  refine ⟨⟨?_, ?_, ?_, ?_⟩, rfl, exists_next ?_, ?_, exists_next ?_, ?_, ?_, ?_, ?_, ?_⟩ <;> decide +kernel

/-- The stack in work RAM, in the echo, and at the top of high RAM. -/
theorem test_witness_StackRoundTrip :
    State.reset.platform = Platform.default ∧ State.reset.memoriesCanonical ∧
    ([0xD000#16, 0xC002#16, 0xE001#16, 0xFE00#16, 0xFFFF#16, 0xFF82#16].all fun sp =>
      (storageCell (sp - 2#16)).isSome && (storageCell (sp - 1#16)).isSome) = true := by
  refine ⟨rfl, ⟨?_, ?_, ?_, ?_⟩, ?_⟩ <;> decide +kernel

/-- R160 to R169 at the ends of their ranges. -/
theorem test_witness_BitEngine :
    mask 32 0 = 1#32 ∧ mask 32 31 = 0x80000000#32 ∧ testBit 0x80000000#32 31 = true ∧
    setBit 0#32 31 true = 0x80000000#32 ∧ extract 0x80000001#32 0 32 = 0x80000001 ∧ extract 0xF0000000#32 28 4 = 15 ∧
    sext16 0x80#8 = 0xFF80#16 ∧ sext16 0x7F#8 = 0x007F#16 := by decide

theorem test_witness_RotationIsInvertible :
    0 < 8 ∧ rotate 0x81#8 1 = 0x03#8 ∧ rotate 0x81#8 (-1) = 0xC0#8 ∧ rotate 0x81#8 8 = 0x81#8 := by decide

/-- The three operand forms. -/
theorem test_witness_AddResult_SubResult_LogicResult (op : AluOp) :
    ready.aluOperand op (.aluReg op .A) (ready.r8 .A) 1 1 ∧ ready.aluOperand op (.aluImm op 0xFF#8) 0xFF#8 2 2 ∧
    ready.aluOperand op (.aluHl op) (ready.busRead ready.hl) 1 2 :=
  ⟨.inl ⟨.A, rfl, rfl, rfl, rfl⟩, .inr (.inl ⟨_, rfl, rfl, rfl, rfl⟩), .inr (.inr ⟨rfl, rfl, rfl, rfl⟩)⟩

/-- Decimal operands at both ends. -/
theorem test_witness_DecimalAdjustIsDecimal :
    ∀ x ∈ [0, 9, 10, 99], ∀ y ∈ [0, 99],
      (start [] [(.A, x / 10 * 16 + x % 10), (.B, y / 10 * 16 + y % 10)]).regs.a = bcdByte x ∧
      (start [] [(.A, x / 10 * 16 + x % 10), (.B, y / 10 * 16 + y % 10)]).r8 .B = bcdByte y := by decide +kernel

theorem test_witness_RotateShiftSwap :
    (Instr.RRA, RotOp.RR) ∈ [(Instr.RLCA, RotOp.RLC), (Instr.RRCA, RotOp.RRC), (Instr.RLA, RotOp.RL), (Instr.RRA, RotOp.RR)] := by
  decide

theorem test_witness_StopAndUnassignedBytesFault :
    Instr.ILLEGAL_D3.form = .illegal 0xD3#8 ∧ Instr.ILLEGAL_FD.form = .illegal 0xFD#8 := ⟨rfl, rfl⟩

/-- One step that completes, two that fault. -/
theorem test_witness_StepFaultsOnlyOnTwelveBytes_FaultIsPreciseAndTerminal :
    (start [0x00] []).fault = none ∧ (∃ t, step (start [0x00] []) = .next t) ∧
    step (start [0x10] []) = .fault (.stopInstruction 0xC000#16) ∧
    step (start [0xFD] []) = .fault (.illegalOpcode 0xC000#16 0xFD#8) := 
  ⟨by decide +kernel, exists_next (by decide +kernel), eq_fault (by decide +kernel), eq_fault (by decide +kernel)⟩

/-- The lowest and the highest line, at a boundary and from `HALT`. -/
theorem test_witness_DispatchTakesTheLowestLine :
    ((irq 1 0x1F 0x1F).fault = none ∧ (irq 1 0x1F 0x1F).ime = true ∧ (irq 1 0x1F 0x1F).next = (irq 1 0x1F 0x1F).cycles ∧
      ((devicesStep (irq 1 0x1F 0x1F)).ie &&& (devicesStep (irq 1 0x1F 0x1F)).iflag).getLsbD Line.VBLANK.index = true) ∧
    ((irq 1 0x10 0x1F).ime = true ∧
      ((devicesStep (irq 1 0x10 0x1F)).ie &&& (devicesStep (irq 1 0x10 0x1F)).iflag).getLsbD Line.JOYPAD.index = true ∧
      ∀ j < Line.JOYPAD.index,
        ((devicesStep (irq 1 0x10 0x1F)).ie &&& (devicesStep (irq 1 0x10 0x1F)).iflag).getLsbD j = false) ∧
    ((halted 1 4).halted = true ∧ (halted 1 4).ime = true ∧
      ((devicesStep (halted 1 4)).ie &&& (devicesStep (halted 1 4)).iflag).getLsbD Line.TIMER.index = true ∧
      ∀ j < Line.TIMER.index,
        ((devicesStep (halted 1 4)).ie &&& (devicesStep (halted 1 4)).iflag).getLsbD j = false) := by
  decide +kernel

theorem test_witness_IdleTicksAndHaltWake :
    ((halted 1 0).fault = none ∧ (halted 1 0).halted = true ∧ (devicesStep (halted 1 0)).pend = 0#8) ∧
    ({ ready with next := 1 }.halted = false ∧ { ready with next := 1 }.cycles ≠ { ready with next := 1 }.next) ∧
    ((halted 0 4).halted = true ∧ (devicesStep (halted 0 4)).pend ≠ 0#8) := by decide +kernel

/-- `EI` and dispatch change IME in a step. -/
theorem test_witness_ImeIsWrittenAndReadOnlyWhereStated :
    (∃ t, exec .EI State.reset = .next t) ∧
    ((after (step (start [0xFB] []))).ime = true ∧ (devicesStep (start [0xFB] [])).fetched = .EI) ∧
    ((irq 1 1 1).ime = true ∧ (after (step (irq 1 1 1))).ime = false ∧ (devicesStep (irq 1 1 1)).pend ≠ 0#8) ∧
    ((devicesStep ready).pend = 0#8 ∧ isNext (step ready) = true) ∧
    ({ ready with next := 1 }.halted = false ∧ { ready with next := 1 }.cycles ≠ { ready with next := 1 }.next) :=
  ⟨exists_next (by decide +kernel), by decide +kernel, by decide +kernel, by decide +kernel, by decide +kernel⟩

theorem test_witness_RunUntilReachesItsTarget :
    (halted 1 0).fault = none ∧ 9 < (halted 1 0).cycles ∧ (halted 1 0).cycles ≤ 12 ∧
    (runUntil 12 (halted 1 0)).2 = none := by decide +kernel

theorem test_witness_DivAndTacWrites_LycWriteEvaluatesCoincidence_DmaWriteStartsTheCopy :
    (timed 0x0008 0xFF 0x42 0x05).platform = Platform.default ∧
    timerSignal (timed 0x0008 0xFF 0x42 0x05).timer = true := by decide

/-- The four selects, TIMA at 0xFF and below. -/
theorem test_witness_TimerRate :
    ∀ s ∈ [timed 0 0xFF 7 0x04, timed 0xFFFF 0xFE 7 0x05, timed 1 0 7 0x06, timed 0x80 0xFF 7 0xFF],
      s.timer.tac.getLsbD 2 = true ∧ ∃ n ∈ [256, 4, 16, 64],
        n = (if s.timer.tac &&& 3#8 = 0#8 then 256 else if s.timer.tac &&& 3#8 = 1#8 then 4
          else if s.timer.tac &&& 3#8 = 2#8 then 16 else 64) := by decide +kernel

/-- The first owner of 0xC000 is the work RAM; nobody owns 0xA000. -/
theorem test_witness_BusReadsTheFirstOwner :
    State.reset.platform.components = [.cpu, .timer, .ppu, cartridgeRom] ++ workRam :: [echoRam] ∧
    (∀ x ∈ [Component.cpu, .timer, .ppu, cartridgeRom], x.read State.reset 0xC000#16 = none) ∧
    workRam.read State.reset 0xC000#16 = some 0#8 ∧
    (∀ x ∈ State.reset.platform.components, x.read State.reset 0xA000#16 = none) ∧
    ∃ t, step State.reset = .next t := 
  ⟨rfl, by decide, by decide, by decide, exists_next (by decide +kernel)⟩

/-- A machine with a boot ROM, whose byte 0 differs from the cartridge's (R86). -/
def booting : State :=
  State.construct { Platform.default with components := .bootRom 0x10000 :: Platform.default.components }
    [(0x0000, 0xAA), (0x10000, 0x31), (0x100FF, 0xE0)]

/-- The ends of the work RAM and of its echo; 0xFF50 with a boot shadow and without one, and an unowned address with
each. -/
theorem test_witness_BusWriteIsBroadcast :
    State.reset.memoriesCanonical ∧ workRam ∈ State.reset.platform.components ∧
    workRam = .ram ⟨0xC000, 0x2000, 0xC000⟩ ∧
    ([0xC000#16, 0xDFFF#16].all fun a => (⟨0xC000, 0x2000, 0xC000⟩ : Region).owns a) = true ∧
    (⟨0xE000, 0x1E00, 0xC000⟩ : Region).owns 0xFDFF#16 = true ∧
    Component.bootRom 0x10000 ∈ booting.platform.components ∧
    (State.reset.bootActive = false ∧ ∃ t, step State.reset = .next t) ∧
    ((∀ x ∈ State.reset.platform.components, x.read State.reset 0xFF50#16 = none) ∧
      State.reset.platform.hasBootRom = false) ∧
    (∀ x ∈ booting.platform.components, x.read booting 0xA000#16 = none) ∧ 0xA000#16 ≠ 0xFF50#16 := by
  refine ⟨⟨?_, ?_, ?_, ?_⟩, ?_, rfl, ?_, ?_, ?_, ⟨rfl, exists_next (by decide +kernel)⟩, ?_, ?_, ?_⟩ <;>
    decide +kernel

/-- R86: the shadow covers 0x0000 to 0x00FF until a write of any byte to 0xFF50. -/
theorem test_boot_shadow :
    booting.busRead 0#16 = 0x31#8 ∧ booting.busRead 0x00FF#16 = 0xE0#8 ∧ booting.busRead 0x0100#16 = 0#8 ∧
    (booting.busWrite 0xFF50#16 0#8).busRead 0#16 = 0xAA#8 ∧ (booting.busWrite 0xFF4F#16 1#8).busRead 0#16 = 0x31#8 := by
  decide +kernel

/-- The ends of each range, and the echo's cell. -/
theorem test_witness_DefaultMemoryMap :
    (([0x8000#16, 0x9FFF#16, 0xC000#16, 0xDFFF#16, 0xE000#16, 0xFDFF#16, 0xFE00#16, 0xFE9F#16, 0xFF80#16, 0xFFFE#16].all
      fun a => (storageCell a).isSome && !unownedByDefault a) &&
    storageCell 0xFDFF#16 == storageCell 0xDDFF#16 && storageCell 0xE000#16 == storageCell 0xC000#16 &&
    ([0xA000#16, 0xBFFF#16, 0xFEA0#16, 0xFF03#16, 0xFF08#16, 0xFF0E#16, 0xFF10#16, 0xFF3F#16, 0xFF4C#16, 0xFF7F#16].all
      fun a => unownedByDefault a && (storageCell a).isNone) &&
    ([0x0000#16, 0x7FFF#16, 0xFF04#16, 0xFF07#16, 0xFF0F#16, 0xFF40#16, 0xFF4B#16, 0xFFFF#16].all
      fun a => !unownedByDefault a && (storageCell a).isNone)) = true := by decide +kernel

/-- Both ways to write LCDC without turning a running LCD off; both ends of the two register blocks. -/
theorem test_witness_PlainRegisterWrites :
    (0x80#8).getLsbD 7 = true ∧ (running 633 5 0x4B 0).ppu.lcdActive = true ∧ State.reset.ppu.lcdActive = false ∧
    State.reset.platform = Platform.default ∧ 0xFF40 ≤ (0xFF40#16).toNat ∧ (0xFF4B#16).toNat ≤ 0xFF4B ∧
    0xFF04 ≤ (0xFF04#16).toNat ∧ (0xFF07#16).toNat ≤ 0xFF07 := by decide +kernel

/-- R28, R29: IE and IF keep all eight bits; R451: STAT keeps its low bits, LY its value. -/
theorem test_register_writes :
    (State.reset.busWrite addrIE 0xE5#8).busRead addrIE = 0xE5#8 ∧
    (State.reset.busWrite addrIF 0xFF#8).busRead addrIF = 0xFF#8 ∧
    (State.reset.busWrite 0xFF4B#16 0xA7#8).busRead 0xFF4B#16 = 0xA7#8 ∧
    (State.reset.busWrite addrTIMA 0xFF#8).busRead addrTIMA = 0xFF#8 ∧
    ((running 633 5 0x4B 0).busWrite 0xFF41#16 0x04#8).ppu.stat = 0x03#8 := by decide +kernel

theorem test_witness_LcdOffAndOn :
    ((running 633 5 0x4B 0).platform = Platform.default ∧ (running 633 5 0x4B 0).ppu.lcdActive = true ∧
      (0x7F#8).getLsbD 7 = false) ∧
    (let s := State.reset.busWrite 0xFF40#16 0x80#8
     s.ppu.lcdActive = false ∧ s.ppu.lcdc.getLsbD 7 = true) ∧
    ∀ p ∈ [(0, 0), (143, 0), (0, 20), (143, 20), (0, 63), (143, 63), (145, 0), (153, 0), (0, 113), (144, 1), (153, 113)],
      let s := running (17556 + 114 * p.1 + p.2) 0 0 0
      s.ppu.lcdActive = true ∧ p.1 < 154 ∧ p.2 < 114 ∧
        (s.cycles - s.ppu.lcdOnCycle) % 17556 = 114 * p.1 + p.2 := by decide +kernel

/-- R450, R495: at offset 20 the line's slot is filled and the window's row rises where the window is drawn, WX = 166
its last column, and not at WX = 167. -/
theorem test_line_is_stored :
    let line1 (wx : Byte) : State := { running 134 1 2 9 with
      ppu := { (running 134 1 2 9).ppu with lcdc := 0xA0, wy := 1, wx := wx, winY := 5 } }
    ((ppuStep (line1 166#8)).ppu.nextFrame.map Option.isSome).take 3 = [false, true, false] ∧
    (ppuStep (line1 166#8)).ppu.winY = 6 ∧ (ppuStep (line1 167#8)).ppu.winY = 5 := by decide +kernel

/-- A frame of 144 composed lines at tick 16416. -/
theorem test_witness_VblankLatchesTheFrame :
    let rows := List.replicate 144 (LcdImageLine.empty 160)
    let s := { running 16416 143 0x10 144 with ppu := { (running 16416 143 0x10 144).ppu with nextFrame := rows.map some } }
    s.ppu.lcdActive = true ∧ (s.cycles - s.ppu.lcdOnCycle) % 17556 = 16416 ∧ s.ppu.nextFrame = rows.map some := by
  refine ⟨rfl, rfl, rfl⟩

theorem test_witness_DmaCopiesThePage :
    let s := State.reset.busWrite 0xFF46#16 0xFF#8
    s.memoriesCanonical ∧ s.ppu.dmaActive = true ∧ s.ppu.dmaIndex = 0 ∧ s.platform = Platform.default := by
  refine ⟨⟨?_, ?_, ?_, ?_⟩, ?_, ?_, ?_⟩ <;> decide +kernel

theorem test_witness_BitVectorExtraction :
    extractZeroExtended 0x81#8 (-1) 4 = 0b0010#4 ∧ extractZeroExtended 0x81#8 7 4 = 0b0001#4 ∧
    extractWrapped 0x81#8 7 4 = 0b0011#4 ∧ extractWrapped 0x81#8 (-1) 2 = 0b11#2 ∧
    shiftVector 0x81#8 7 = 0x80#8 ∧ shiftVector 0x81#8 (-7) = 0x01#8 := by decide

/-- Column 0 and column 255 of a line of tile rows; a join at 0 and at `n`. -/
theorem test_witness_ScanlineAlgebra :
    (lineFromTiles fun _ => (0x80#8, 0x01#8)).colour 0 = 1#2 ∧
    (lineFromTiles fun _ => (0x80#8, 0x01#8)).colour 255 = 2#2 ∧
    ((⟨0xFF#8, 0#8, 0#8⟩ : LcdImageLine 8).join (LcdImageLine.empty 8) 0).colour 0 = 0#2 ∧
    ((⟨0xFF#8, 0#8, 0#8⟩ : LcdImageLine 8).join (LcdImageLine.empty 8) 8).colour 7 = 2#2 := by decide +kernel

theorem test_witness_RenderedLineIsThePixelRule :
    0 < 160 ∧ 159 < 160 ∧ (scene 0x93 [0x10, 0x0C, 0x02, 0x80]).pixel false 0 6 = 1#2 := by decide +kernel

/-- A running machine: the LCD in its first line, at the tick that renders it. -/
def live : State := { running 20 0 0x06 0 with next := 22 }

theorem test_witness_StepKeepsTheInvariant_StepKeepsTheSchedule :
    (after (step live)).ScheduleInv ∧ ∃ t, step (after (step live)) = .next t := by
  unfold State.ScheduleInv State.Inv State.memoriesCanonical State.memoriesInRange State.flagsLowNibbleZero
    State.boundaryAhead State.dmaInRange State.frameShape State.lcdOffQuiet State.lcdStarted State.coincidenceSound
    State.onSchedule State.slotsFilled
  refine ⟨?_, exists_next (by decide +kernel)⟩
  decide +kernel

end Sys2Proof.Tests
end

