-- ==== Sys2Proof/Proofs/ImeBlind.lean ====
section
/-! SUPPORT. R27: nothing but dispatch reads IME. A function of the state is blind to IME when setting IME before it
gives what setting IME after it gives; the bus, the device steps and every form but `DI`, `EI` and `RETI` are. -/

namespace Sys2Proof.Machine

/-- The state with IME replaced. -/
def State.withIme (b : Bool) (s : State) : State := { s with ime := b }

@[simp] theorem State.withIme_self (s : State) : s.withIme s.ime = s := rfl

/-- A function of the state that neither reads nor writes IME (`ImeBlind.keeps_ime` says the second). -/
def ImeBlind (f : State → State) : Prop := ∀ (b : Bool) (s : State), f (s.withIme b) = (f s).withIme b

/-- What does not read IME and leaves a given IME does not write it. -/
theorem ImeBlind.keeps_ime {f : State → State} (hf : ImeBlind f) (s : State) : (f s).ime = s.ime :=
  (congrArg State.ime (hf s.ime s) :)

theorem ImeBlind.id : ImeBlind fun s => s := fun _ _ => rfl

theorem ImeBlind.comp {f g : State → State} (hf : ImeBlind f) (hg : ImeBlind g) : ImeBlind fun s => f (g s) :=
  fun b s => by simp only [hg b s, hf b (g s)]

/-- A choice between blind functions by a test that does not read IME. -/
theorem ImeBlind.ite {c : State → Prop} [DecidablePred c] {f g : State → State} (hf : ImeBlind f) (hg : ImeBlind g)
    (hc : ∀ b s, c (s.withIme b) ↔ c s := by exact fun _ _ => Iff.rfl) :
    ImeBlind fun s => if c s then f s else g s :=
  fun b s => by simp only [hc, hf b s, hg b s, apply_ite (State.withIme b)]

/-- A choice between blind functions by a test of no state. -/
theorem ImeBlind.ite_const {p : Prop} [Decidable p] {f g : State → State} (hf : ImeBlind f) (hg : ImeBlind g) :
    ImeBlind fun s => if p then f s else g s :=
  .ite (c := fun _ => p) hf hg

/-! ## The bus -/

/-- R27: IME has no bus address. -/
@[simp] theorem busRead_withIme (b : Bool) (s : State) (a : Word) : (s.withIme b).busRead a = s.busRead a :=
  busRead_congr (s := s) (t := s.withIme b) s.sameBus_refl rfl a

theorem timaIncrement_imeBlind : ImeBlind timaIncrement :=
  .ite (c := fun s => s.timer.tima = 0xFF#8) (fun _ _ => rfl) (fun _ _ => rfl)

theorem timerEdge_imeBlind (s0 : Bool) : ImeBlind (timerEdge s0) :=
  .ite (c := fun s => (s0 && !timerSignal s.timer) = true) timaIncrement_imeBlind .id

theorem timerUpdate_imeBlind (change : Timer → Timer) : ImeBlind (timerUpdate change) :=
  fun b s => timerEdge_imeBlind (timerSignal s.timer) b { s with timer := change s.timer }

theorem timerStep_imeBlind : ImeBlind timerStep := fun b s => timerUpdate_imeBlind _ b s

theorem writeDiv_imeBlind : ImeBlind writeDiv := fun b s => timerUpdate_imeBlind _ b s

theorem writeTac_imeBlind (v : Byte) : ImeBlind (writeTac v) := fun b s => timerUpdate_imeBlind _ b s

theorem coincidence_imeBlind : ImeBlind coincidence :=
  .ite (c := fun s => s.ppu.ly = s.ppu.lyc)
    (.ite (c := fun s => s.ppu.stat.getLsbD 6 = true) (fun _ _ => rfl) (fun _ _ => rfl)) (fun _ _ => rfl)

theorem lcdOff_imeBlind : ImeBlind lcdOff := fun b s =>
  coincidence_imeBlind b { s with ppu := { s.ppu with
    lcdActive := false, stat := statWithMode s.ppu.stat 0#8, ly := 0#8 } }

theorem writePpuReg_imeBlind (r : PpuReg) (d : Byte) : ImeBlind (writePpuReg r d) := by
  cases r
  case LCDC =>
    exact .ite (c := fun s => (!d.getLsbD 7 && s.ppu.lcdActive) = true)
      (fun b s => lcdOff_imeBlind b { s with ppu := { s.ppu with lcdc := d } }) (fun _ _ => rfl)
  case LYC => exact fun b s => coincidence_imeBlind b { s with ppu := { s.ppu with lyc := d } }
  all_goals exact fun _ _ => rfl

theorem Component.write_imeBlind (comp : Component) (a : Word) (d : Byte) : ImeBlind (comp.write a d) := by
  cases comp
  case cpu => exact .ite_const (fun _ _ => rfl) (.ite_const (fun _ _ => rfl) (.ite_const (fun _ _ => rfl) .id))
  case timer =>
    exact .ite_const writeDiv_imeBlind (.ite_const (fun _ _ => rfl) (.ite_const (fun _ _ => rfl)
      (.ite_const (writeTac_imeBlind d) .id)))
  case ppu =>
    refine .ite_const (fun _ _ => rfl) (.ite_const (fun _ _ => rfl) ?_)
    cases PpuReg.ofAddr a with
    | some r => exact writePpuReg_imeBlind r d
    | none => exact .id
  case ram r => exact .ite_const (fun _ _ => rfl) .id
  case rom r => exact .id
  case bootRom base => exact .ite_const (fun _ _ => rfl) .id

/-- A bus write is a chain of component writes, each of them blind. -/
theorem busWrite_imeBlind (a : Word) (d : Byte) : ImeBlind fun s => s.busWrite a d :=
  fun b _ => List.foldl_hom (State.withIme b) fun t comp => comp.write_imeBlind a d b t

theorem busWrite16_imeBlind (a v : Word) : ImeBlind fun s => s.busWrite16 a v :=
  (busWrite_imeBlind _ _).comp (busWrite_imeBlind _ _)

theorem push16_imeBlind (v : Word) : ImeBlind (push16 v) :=
  fun b s => busWrite16_imeBlind _ _ b { s with sp := s.sp - 2#16 }

/-! ## The device steps -/

theorem dmaStep_imeBlind : ImeBlind dmaStep :=
  .ite (c := fun s => s.ppu.dmaActive = true) (fun b s => by rw [busRead_withIme]; rfl) .id

theorem lcdStart_imeBlind : ImeBlind lcdStart :=
  .ite (c := fun s => (!s.ppu.lcdActive && s.ppu.lcdc.getLsbD 7) = true) (fun _ _ => rfl) .id

theorem setMode_imeBlind (m : Nat) : ImeBlind (setMode m) :=
  .ite (c := fun s => m ≠ 3 ∧ s.ppu.stat.getLsbD (3 + m) = true) (fun _ _ => rfl) (fun _ _ => rfl)

theorem setLY_imeBlind (v : Byte) : ImeBlind (setLY v) :=
  fun b s => coincidence_imeBlind b { s with ppu := { s.ppu with ly := v } }

theorem vblankEntry_imeBlind : ImeBlind vblankEntry := fun _ _ => rfl

theorem lineStart_imeBlind (line : Nat) : ImeBlind (lineStart line) := by
  have hFrame : ImeBlind fun s => if line = 0 then frameStart s else s := .ite_const (fun _ _ => rfl) .id
  have hScan : ImeBlind fun s => if line < lcdHeight then setMode 2 s else s := .ite_const (setMode_imeBlind 2) .id
  have hBlank : ImeBlind fun s => if line = lcdHeight then setMode 1 s else s := .ite_const (setMode_imeBlind 1) .id
  have hLatch : ImeBlind fun s => if line = lcdHeight then vblankEntry s else s := .ite_const vblankEntry_imeBlind .id
  intro b s
  unfold lineStart
  exact (hLatch.comp ((setLY_imeBlind _).comp (hBlank.comp (hScan.comp hFrame)))) b s

theorem pixelTransfer_imeBlind (line : Nat) : ImeBlind (pixelTransfer line) :=
  fun b s => by unfold pixelTransfer; rw [setMode_imeBlind 3 b s]; rfl

theorem lcdAction_imeBlind (p : Nat) : ImeBlind (lcdAction p) :=
  .ite_const (lineStart_imeBlind _) (.ite_const (pixelTransfer_imeBlind _) (.ite_const (setMode_imeBlind 0) .id))

theorem lcdStep_imeBlind : ImeBlind lcdStep :=
  .ite (c := fun s => s.ppu.lcdActive = true) (fun b s => lcdAction_imeBlind (framePosition s) b s) .id

theorem ppuStep_imeBlind : ImeBlind ppuStep := lcdStep_imeBlind.comp (lcdStart_imeBlind.comp dmaStep_imeBlind)

/-- R27, R420: the device steps neither read nor write IME. -/
theorem devicesStep_imeBlind : ImeBlind devicesStep := ppuStep_imeBlind.comp timerStep_imeBlind

/-! ## The instructions -/

/-- The end of an instruction after a blind operation `g`. -/
theorem ImeBlind.retire {g : State → State} (hg : ImeBlind g) (length cost : Nat) :
    ImeBlind fun s => s.retire length cost (g s) :=
  fun b s => congrArg (s.retire length cost) (hg b s)

theorem ImeBlind.transfer {g : State → State} (hg : ImeBlind g) (target : Word) (cost : Nat) :
    ImeBlind fun s => s.transfer target cost (g s) :=
  fun b s => congrArg (s.transfer target cost) (hg b s)

theorem ImeBlind.route {w : Nat} {g : State → State} (hg : ImeBlind g) (ρ : Routing) (x : AluResult w) :
    ImeBlind fun s => (g s).route ρ x :=
  fun b s => congrArg (State.route · ρ x) (hg b s)

theorem setR16_imeBlind (p : R16) (v : Word) : ImeBlind fun s => s.setR16 p v := by
  cases p <;> exact fun _ _ => rfl

theorem setPair_imeBlind (p : R16S) (v : Word) : ImeBlind fun s => s.setPair p v := by
  cases p <;> exact fun _ _ => rfl

theorem indStep_imeBlind (i : Ind) (a : Word) : ImeBlind fun s => s.indStep i a := by
  cases i <;> exact fun _ _ => rfl

theorem aluA_imeBlind (op : AluOp) (v : Byte) : ImeBlind (aluA op v) := by
  cases op <;> exact fun _ _ => rfl

/-- An outcome with the next state changed by `g`. -/
def mapNext (g : State → State) : Host.Outcome State Fault Refusal → Host.Outcome State Fault Refusal
  | .next t => .next (g t)
  | .fault f => .fault f
  | .refused r => .refused r

/-- Changes that commute on states commute on outcomes. -/
theorem mapNext_comm {f g : State → State} (h : ∀ t, f (g t) = g (f t)) (o : Host.Outcome State Fault Refusal) :
    mapNext f (mapNext g o) = mapNext g (mapNext f o) := by
  cases o
  case next t => exact congrArg _ (h t)
  case fault => rfl
  case refused => rfl

theorem opPrefixedHl_imeBlind (byte : Byte) : ImeBlind (opPrefixedHl byte) := by
  intro b s
  unfold opPrefixedHl
  split
  · exact ((busWrite_imeBlind s.hl _).route _ _).retire 2 4 b s
  · rfl
  · exact (busWrite_imeBlind s.hl _).retire 2 4 b s
  · exact (busWrite_imeBlind s.hl _).retire 2 4 b s

theorem opPrefixedReg_imeBlind (byte : Byte) (r : R8) : ImeBlind (opPrefixedReg byte r) := by
  intro b s
  unfold opPrefixedReg
  split <;> rfl

theorem opPrefixed_imeBlind (byte : Byte) : ImeBlind (opPrefixed byte) := by
  intro b s
  unfold opPrefixed
  split
  · exact opPrefixedReg_imeBlind byte _ b s
  · exact opPrefixedHl_imeBlind byte b s

theorem opJpCond_imeBlind (c : Cond) (nn : Word) : ImeBlind (opJpCond c nn) :=
  .ite (c := fun s => s.cond c = true) (fun _ _ => rfl) (fun _ _ => rfl)

theorem opJrCond_imeBlind (c : Cond) (e : Byte) : ImeBlind (opJrCond c e) :=
  .ite (c := fun s => s.cond c = true) (fun _ _ => rfl) (fun _ _ => rfl)

theorem opCallCond_imeBlind (c : Cond) (nn : Word) : ImeBlind (opCallCond c nn) :=
  .ite (c := fun s => s.cond c = true)
    (fun b s => (push16_imeBlind (s.pc + 3#16)).transfer nn 6 b s) (fun _ _ => rfl)

theorem opRetCond_imeBlind (c : Cond) : ImeBlind (opRetCond c) :=
  .ite (c := fun s => s.cond c = true) (fun _ _ => rfl) (fun _ _ => rfl)

/-- R27: the shared operation of every form but `DI`, `EI` and `RETI` is blind to IME; a fault does not depend on it. -/
theorem execForm_withIme (f : Form) (hf : f.writesIme = false) (b : Bool) (s : State) :
    execForm f (s.withIme b) = mapNext (State.withIme b) (execForm f s) := by
  have next {t u : State} (h : t = u.withIme b) : Host.Outcome.next t = mapNext (State.withIme b) (.next u) :=
    congrArg _ h
  cases f
  case di => contradiction
  case ei => contradiction
  case reti => contradiction
  case ldHlReg r => exact next ((busWrite_imeBlind s.hl (s.r8 r)).retire 1 2 b s)
  case ldHlImm n => exact next ((busWrite_imeBlind s.hl n).retire 2 3 b s)
  case ldhStore n => exact next ((busWrite_imeBlind (ioAddr n) (s.r8 .A)).retire 2 3 b s)
  case ldCStore => exact next ((busWrite_imeBlind (ioAddr (s.r8 .C)) (s.r8 .A)).retire 1 2 b s)
  case ldAbsStore nn => exact next ((busWrite_imeBlind nn (s.r8 .A)).retire 3 4 b s)
  case ldIndA i =>
    exact next (((indStep_imeBlind i (s.indAddr i)).comp (busWrite_imeBlind (s.indAddr i) (s.r8 .A))).retire 1 2 b s)
  case ldAInd i => exact next (congrArg (s.retire 1 2)
    (indStep_imeBlind i (s.indAddr i) b (s.setR8 .A (s.busRead (s.indAddr i)))))
  case ldAbsSp nn => exact next ((busWrite16_imeBlind nn s.sp).retire 3 5 b s)
  case ldPairImm p nn => exact next ((setR16_imeBlind p nn).retire 3 3 b s)
  case push p => exact next ((push16_imeBlind (s.pair p)).retire 1 4 b s)
  case pop p => exact next (congrArg (s.retire 1 3) (setPair_imeBlind p (poppedWord s) b (dropWord s)))
  case aluReg op r => exact next ((aluA_imeBlind op (s.r8 r)).retire 1 1 b s)
  case aluImm op n => exact next ((aluA_imeBlind op n).retire 2 2 b s)
  case aluHl op => exact next ((aluA_imeBlind op (s.busRead s.hl)).retire 1 2 b s)
  case incHl => exact next (((busWrite_imeBlind s.hl _).route _ _).retire 1 3 b s)
  case decHl => exact next (((busWrite_imeBlind s.hl _).route _ _).retire 1 3 b s)
  case incPair p => exact next ((setR16_imeBlind p (s.r16 p + 1#16)).retire 1 2 b s)
  case decPair p => exact next ((setR16_imeBlind p (s.r16 p - 1#16)).retire 1 2 b s)
  case rotHl k => exact next (((busWrite_imeBlind s.hl _).route _ _).retire 2 4 b s)
  case resHl => exact next ((busWrite_imeBlind s.hl _).retire 2 4 b s)
  case setHl => exact next ((busWrite_imeBlind s.hl _).retire 2 4 b s)
  case call nn => exact next ((push16_imeBlind (s.pc + 3#16)).transfer nn 6 b s)
  case rst t => exact next ((push16_imeBlind (s.pc + 1#16)).transfer _ 4 b s)
  case callCond c nn => exact next (opCallCond_imeBlind c nn b s)
  case prefixed => exact next (opPrefixed_imeBlind (s.busRead (s.pc + 1#16)) b s)
  case jpCond c nn => exact next (opJpCond_imeBlind c nn b s)
  case jrCond c e => exact next (opJrCond_imeBlind c e b s)
  case retCond c => exact next (opRetCond_imeBlind c b s)
  -- The other forms write no memory, or fault.
  all_goals rfl

/-- R27: `DI`, `EI` and `RETI` write IME and do not read it. -/
theorem execForm_withIme_of_writesIme (f : Form) (hf : f.writesIme = true) (b : Bool) (s : State) :
    execForm f (s.withIme b) = execForm f s := by
  cases f
  case di => rfl
  case ei => rfl
  case reti => rfl
  all_goals contradiction

/-- R27: what an instruction does for the other value of IME. -/
theorem exec_withIme (i : Instr) (b : Bool) (s : State) :
    exec i (s.withIme b) = if i.form.writesIme = true then exec i s else mapNext (State.withIme b) (exec i s) := by
  simp only [exec_form]
  split
  · exact execForm_withIme_of_writesIme _ ‹_› b s
  · exact execForm_withIme _ (Bool.eq_false_of_not_eq_true ‹_›) b s

/-- R27: an instruction but `DI`, `EI` and `RETI` leaves IME. -/
theorem exec_keeps_ime (i : Instr) (s t : State) (h : exec i s = .next t) (hi : i.form.writesIme = false) :
    t.ime = s.ime := by
  have e : exec i s = mapNext (State.withIme s.ime) (exec i s) := by
    simpa [hi] using exec_withIme i s.ime s
  rw [h] at e
  exact (congrArg State.ime (Host.Outcome.next.inj e) :)

end Sys2Proof.Machine
end

