-- ==== Sys2Proof/Proofs/ImeStep.lean ====
section
/-! SUPPORT. R27, R390 to R394: what a step does with IME. A tick without a dispatch runs alike for either value; a
step that changes IME dispatched or ran one of its three writers. -/

namespace Sys2Proof.Machine

/-- R394: the wake test does not read IME. -/
theorem wake_imeBlind : ImeBlind wake :=
  .ite (c := fun s => s.halted = true ∧ s.pend ≠ 0#8) (fun _ _ => rfl) .id

/-- A tick in which no dispatch can be: nothing is enabled and pending, or the CPU is before its boundary. -/
def State.quiet (d : State) : Prop := d.pend = 0#8 ∨ (d.halted = false ∧ d.cycles ≠ d.next)

/-- Without a dispatch a halted CPU sleeps on. -/
theorem State.quiet.wake_eq {d : State} (h : d.quiet) : wake d = d := by
  unfold wake
  rcases h with hp | ⟨hh, -⟩
  · simp [hp]
  · simp [hh]

/-- The device steps leave what makes a tick idle. -/
theorem devicesStep_quiet {s : State} (h : (devicesStep s).pend = 0#8 ∨ (s.halted = false ∧ s.cycles ≠ s.next)) :
    (devicesStep s).quiet := by
  obtain ⟨-, -, -, -, hhalted, hnext, -, hcycles, -⟩ := devicesStep_sameCpu s
  simpa only [State.quiet, hhalted, hnext, hcycles] using h

/-- The fetch reads the bus and `pc` only. -/
theorem State.fetched_withIme (b : Bool) (s : State) : (s.withIme b).fetched = s.fetched :=
  congrArg (decodeAt · s.pc) (funext (busRead_withIme b s))

/-- R390, R391: with nothing enabled and pending, a boundary runs the instruction at `pc`. -/
theorem atBoundary_of_pend_eq_zero {s : State} (h : s.pend = 0#8) : atBoundary s = exec s.fetched s := by
  have hr : s.recognised = none := by simp [State.recognised, h, lowestLine]
  simp [atBoundary, hr]

/-- A quiet CPU step does not read IME: what it does is what it does for the other value, IME kept, or IME written by
`DI`, `EI` or `RETI`. -/
theorem runBoundary_withIme (b : Bool) {d : State} (h : d.quiet) :
    runBoundary (d.withIme b) = mapNext (State.withIme b) (runBoundary d) ∨
      d.fetched.form.writesIme = true ∧ runBoundary (d.withIme b) = runBoundary d := by
  by_cases hidle : d.halted = true ∨ d.cycles ≠ d.next
  · have hidle' : (d.withIme b).halted = true ∨ (d.withIme b).cycles ≠ (d.withIme b).next := hidle
    left
    simp [runBoundary, hidle, hidle', mapNext]
  · have hidle' : ¬((d.withIme b).halted = true ∨ (d.withIme b).cycles ≠ (d.withIme b).next) := hidle
    have hp : d.pend = 0#8 := h.resolve_right fun hn => hidle (.inr hn.2)
    have hp' : (d.withIme b).pend = 0#8 := hp
    simp only [runBoundary, hidle, hidle', if_false, atBoundary_of_pend_eq_zero hp, atBoundary_of_pend_eq_zero hp',
      State.fetched_withIme, exec_withIme]
    split
    · exact .inr ⟨‹_›, rfl⟩
    · exact .inl rfl

/-- R393, R420: a step of a machine without a fault, in one equation. -/
theorem step_of_fault_eq_none {s : State} (hf : s.fault = none) :
    step s = mapNext (State.endTick s.cycles) (runBoundary (wake (devicesStep s))) := by
  obtain ⟨-, -, -, -, -, -, hfault, -, -⟩ := devicesStep_sameCpu s
  simp only [step, hf, tick, cpuStep, hfault]
  cases runBoundary (wake (devicesStep s)) <;> rfl

/-- R27: what `runBoundary_withIme` says of a whole step; a machine with a fault answers it for either value. -/
theorem step_withIme (b : Bool) {s : State} (h : (devicesStep s).quiet) :
    step (s.withIme b) = mapNext (State.withIme b) (step s) ∨
      (devicesStep s).fetched.form.writesIme = true ∧ step (s.withIme b) = step s := by
  cases hf : s.fault with
  | some f =>
    have hf' : (s.withIme b).fault = some f := hf
    left
    simp [step, hf, hf', mapNext]
  | none =>
    have hf' : (s.withIme b).fault = none := hf
    rw [step_of_fault_eq_none hf, step_of_fault_eq_none hf', devicesStep_imeBlind b s, wake_imeBlind, h.wake_eq]
    rcases runBoundary_withIme b h with e | ⟨hw, e⟩
    · left
      rw [e]
      exact mapNext_comm (f := State.endTick s.cycles) (g := State.withIme b) (fun _ => rfl) _
    · exact .inr ⟨hw, by rw [e]; rfl⟩

/-- R392: dispatch writes 0. -/
theorem dispatch_ime (i : Line) (s : State) : (dispatch i s).ime = false := by
  simp [dispatch, acknowledge]

/-- R390, R391: an interrupt is recognised only with IME set and something enabled and pending. -/
theorem State.recognised_eq_some {s : State} {i : Line} (h : s.recognised = some i) :
    s.ime = true ∧ s.pend ≠ 0#8 := by
  refine ⟨?_, fun hp => ?_⟩
  · by_contra hn
    simp [State.recognised, hn] at h
  · simp [State.recognised, hp, lowestLine] at h

theorem wake_ime (s : State) : (wake s).ime = s.ime := wake_imeBlind.keeps_ime s

theorem wake_pend (s : State) : (wake s).pend = s.pend := by
  unfold wake; split <;> rfl

theorem wake_fetched (s : State) : (wake s).fetched = s.fetched := by
  unfold wake; split <;> rfl

/-- R27: a boundary that changes IME dispatched an interrupt or ran `DI`, `EI` or `RETI`. -/
theorem runBoundary_changes_ime {d t : State} (h : runBoundary d = .next t) (hne : t.ime ≠ d.ime) :
    (d.ime = true ∧ t.ime = false ∧ d.pend ≠ 0#8) ∨ d.fetched.form.writesIme = true := by
  unfold runBoundary at h
  split at h
  · cases h
    exact absurd rfl hne
  unfold atBoundary at h
  split at h
  next i hi =>
    cases h
    obtain ⟨hime, hp⟩ := State.recognised_eq_some hi
    exact .inl ⟨hime, dispatch_ime i d, hp⟩
  · right
    by_contra hw
    exact hne (exec_keeps_ime _ d t h (Bool.eq_false_of_not_eq_true hw))

/-- R27: what `runBoundary_changes_ime` says of a whole step. -/
theorem step_changes_ime {s t : State} (h : step s = .next t) (hne : t.ime ≠ s.ime) :
    (s.ime = true ∧ t.ime = false ∧ (devicesStep s).pend ≠ 0#8) ∨
      (devicesStep s).fetched.form.writesIme = true := by
  have hf : s.fault = none := (step_cases s t h).1
  have hd : (devicesStep s).ime = s.ime := devicesStep_imeBlind.keeps_ime s
  rw [step_of_fault_eq_none hf] at h
  cases hu : runBoundary (wake (devicesStep s)) <;> rw [hu] at h <;> cases h
  next u =>
    have hne' : u.ime ≠ (wake (devicesStep s)).ime := by rwa [wake_ime, hd]
    have hc := runBoundary_changes_ime hu hne'
    rwa [wake_ime, wake_pend, wake_fetched, hd] at hc

/-- Settles O38: the bus, the device steps, the wake test and every form but the three writers are blind to IME
(`ImeBlind`); the step's two clauses follow from `step_withIme` and `step_changes_ime`. -/
theorem imeIsWrittenAndReadOnlyWhereStated : Obligations.ImeIsWrittenAndReadOnlyWhereStated := by
  refine ⟨fun s b a => busRead_withIme b s a, busWrite_ime, fun s => ⟨⟨_, rfl, rfl⟩, ⟨_, rfl, rfl⟩, ⟨_, rfl, rfl⟩⟩,
    dispatch_ime, fun s b => devicesStep_imeBlind b s, fun i s t b h => ⟨?_, exec_keeps_ime i s t h⟩,
    fun s b => wake_imeBlind b s, fun s b hq => ?_, fun s t h hne => ?_⟩
  · have e := exec_withIme i b s
    rw [h] at e
    refine e.trans ?_
    split <;> rfl
  · rcases step_withIme b (devicesStep_quiet hq) with e | ⟨hw, e⟩
    · exact ⟨fun t ht => .inl (e.trans (congrArg _ ht)), fun f hf => e.trans (congrArg _ hf)⟩
    · exact ⟨fun t ht => .inr ⟨hw, e.trans ht⟩, fun f hf => e.trans hf⟩
  · exact (step_changes_ime h hne).imp_right fun hw => ⟨_, hw, rfl⟩

end Sys2Proof.Machine
end

