-- ==== Sys2Proof/Proofs/BusRead.lean ====
section
/-! SUPPORT. R52, R73: which component answers a bus read, and that no step changes the list. -/

namespace Sys2Proof.Machine

/-- R73: the first component with an answer, in attachment order, gives the bus its byte. -/
theorem busRead_of_first_owner {s : State} {a : Word} {before after : List Component} {c : Component} {v : Byte}
    (hl : s.platform.components = before ++ c :: after) (hb : ∀ x ∈ before, x.read s a = none)
    (hc : c.read s a = some v) : s.busRead a = v := by
  have hnone : before.findSome? (fun x => x.read s a) = none := List.findSome?_eq_none_iff.mpr hb
  simp [State.busRead, hl, List.findSome?_append, hnone, hc]

/-- R73: an address that nobody answers reads as the undriven bus. -/
theorem busRead_of_no_owner {s : State} {a : Word} (h : ∀ x ∈ s.platform.components, x.read s a = none) :
    s.busRead a = 0xFF#8 := by
  have hnone : s.platform.components.findSome? (fun x => x.read s a) = none := List.findSome?_eq_none_iff.mpr h
  simp [State.busRead, hnone, busDefault]

/-- R52: no step changes the components or the parameters. -/
theorem step_platform {s t : State} (h : step s = .next t) : t.platform = s.platform := by
  obtain ⟨-, u, hu, rfl⟩ := step_cases s t h
  obtain ⟨-, -, -, -, -, -, -, -, hplatform⟩ := devicesStep_sameCpu s
  exact hu.plat.trans hplatform

/-- Settles O45: a read searches the list in attachment order, and `CpuPost` and `sameCpu` keep the platform. -/
theorem busReadsTheFirstOwner : Obligations.BusReadsTheFirstOwner :=
  ⟨fun _ _ _ _ _ _ => busRead_of_first_owner, fun _ _ => busRead_of_no_owner, fun _ _ => step_platform⟩

end Sys2Proof.Machine
end

