-- ==== Sys2Proof/Proofs/BusWrite.lean ====
section
/-! SUPPORT. R74, R86: a bus write reaches every component of the list; what the platform's storage and the boot bit
are after it, and when it changes nothing. -/

namespace Sys2Proof.Machine

/-! ## The platform's storage -/

@[simp] theorem lcdOff_mem (s : State) : (lcdOff s).mem = s.mem := coincidence_mem _

@[simp] theorem writePpuReg_mem (r : PpuReg) (d : Byte) (s : State) : (writePpuReg r d s).mem = s.mem := by
  cases r
  case LCDC =>
    unfold writePpuReg
    dsimp only
    split
    · exact lcdOff_mem _
    · rfl
  case LYC => exact coincidence_mem _
  all_goals rfl

/-- R83, R85: a RAM stores the byte of a write that it owns. -/
theorem Component.write_ram_mem {r : Region} {a : Word} (h : r.owns a = true) (d : Byte) (s : State) :
    (Component.write (.ram r) a d s).mem = s.mem.write (r.key a) d := by
  simp [Component.write, h]

/-- A component's write leaves the platform's storage, unless it is a RAM that owns the address. -/
theorem Component.write_mem (comp : Component) (a : Word) (d : Byte) (s : State) :
    (comp.write a d s).mem = s.mem ∨
      ∃ r, comp = .ram r ∧ r.owns a = true ∧ (comp.write a d s).mem = s.mem.write (r.key a) d := by
  cases comp
  case ram r =>
    by_cases h : r.owns a = true
    · exact .inr ⟨r, rfl, h, write_ram_mem h d s⟩
    · exact .inl (by simp [Component.write, h])
  all_goals
    left
    simp only [Component.write]
  case cpu => split_ifs <;> rfl
  case timer => split_ifs <;> simp [writeDiv, writeTima, writeTma, writeTac]
  case ppu =>
    split_ifs
    · rfl
    · rfl
    · split
      · exact writePpuReg_mem _ d s
      · rfl
  case bootRom => split_ifs <;> rfl

/-- A component's write keeps the platform's storage in canonical form. -/
theorem Component.write_mem_wf (comp : Component) (a : Word) (d : Byte) {s : State} (h : s.mem.wf = true) :
    (comp.write a d s).mem.wf = true := by
  obtain e | ⟨r, -, -, e⟩ := comp.write_mem a d s
  · rwa [e]
  · rw [e]
    exact Memory.wf_write h _ _

/-- A cell that holds the written byte holds it after every component's write: no component stores another byte. -/
theorem Component.write_keeps_written (comp : Component) (a : Word) {d : Byte} {s : State} {k : Nat}
    (hwf : s.mem.wf = true) (h : s.mem.read k = d) : (comp.write a d s).mem.read k = d := by
  obtain e | ⟨r, -, -, e⟩ := comp.write_mem a d s
  · rwa [e]
  · rw [e, Memory.read_write hwf, h, ite_self]

/-! ## The bus -/

/-- R74: a write is the writes of the components of the first part of the list, then those of the rest. -/
theorem busWrite_of_append {s : State} {before after : List Component}
    (hl : s.platform.components = before ++ after) (a : Word) (d : Byte) :
    s.busWrite a d = after.foldl (fun t c => c.write a d t) (before.foldl (fun t c => c.write a d t) s) := by
  rw [State.busWrite, hl, List.foldl_append]

/-- R74, R83: a RAM of the list that owns the address holds the byte after a bus write: it stores it, and the components
after it store no other. -/
theorem busWrite_mem_read_of_ram {s : State} {a : Word} {r : Region} (hwf : s.mem.wf = true)
    (hr : .ram r ∈ s.platform.components) (ho : r.owns a = true) (d : Byte) :
    (s.busWrite a d).mem.read (r.key a) = d := by
  obtain ⟨before, after, hl⟩ := List.append_of_mem hr
  rw [busWrite_of_append hl, List.foldl_cons]
  set u := before.foldl (fun t c => Component.write c a d t) s
  have hu : u.mem.wf = true :=
    List.foldlRecOn (motive := fun t : State => t.mem.wf = true) before _ hwf fun _ ht c _ => c.write_mem_wf a d ht
  have hread : (Component.write (.ram r) a d u).mem.read (r.key a) = d := by
    rw [Component.write_ram_mem ho, Memory.read_write hu, if_pos rfl]
  exact (List.foldlRecOn (motive := fun t : State => t.mem.wf = true ∧ t.mem.read (r.key a) = d) after _
    ⟨Component.write_mem_wf _ a d hu, hread⟩
    fun _ ⟨hw, hk⟩ c _ => ⟨c.write_mem_wf a d hw, c.write_keeps_written a hw hk⟩).2

/-- R71: a component that answers no read of an address takes no write there, but for the boot shadow's register
(log 19). -/
theorem Component.write_eq_self_of_read_eq_none {comp : Component} {s : State} {a : Word}
    (h : comp.read s a = none) (hb : comp.isBootRom = false ∨ a ≠ addrBoot) (d : Byte) : comp.write a d s = s := by
  cases comp
  case bootRom =>
    have ha : a ≠ addrBoot := hb.resolve_left Bool.noConfusion
    exact if_neg ha
  case rom => rfl
  case ppu =>
    simp only [Component.read] at h
    simp only [Component.write]
    split_ifs at h ⊢
    rw [Option.map_eq_none_iff.mp h]
  all_goals
    simp only [Component.read] at h
    simp only [Component.write]
    split_ifs at h ⊢
    rfl

/-- R74: a bus write that no component owns changes nothing. -/
theorem busWrite_eq_self {s : State} {a : Word} (h : ∀ x ∈ s.platform.components, x.read s a = none)
    (hb : s.platform.hasBootRom = false ∨ a ≠ addrBoot) (d : Byte) : s.busWrite a d = s := by
  refine List.foldlRecOn (motive := (· = s)) s.platform.components _ rfl fun t ht c hc => ?_
  subst ht
  refine Component.write_eq_self_of_read_eq_none (h c hc) (hb.imp_left fun hn => ?_) d
  exact Bool.eq_false_iff.mpr (List.any_eq_false.mp hn c hc)

/-! ## The boot shadow -/

/-- R86: with a boot shadow attached, a write of any byte to its register ends boot mode. -/
theorem busWrite_addrBoot_bootActive {s : State} {base : Nat} (h : .bootRom base ∈ s.platform.components) (d : Byte) :
    (s.busWrite addrBoot d).bootActive = false := by
  have hb : s.platform.hasBootRom = true := List.any_eq_true.mpr ⟨_, h, rfl⟩
  simp [busWrite_bootActive, hb]

/-- R86: no other write changes the boot bit. -/
theorem busWrite_keeps_bootActive {s : State} {a : Word} (h : s.platform.hasBootRom = false ∨ a ≠ addrBoot)
    (d : Byte) : (s.busWrite a d).bootActive = s.bootActive := by
  obtain h | h := h <;> simp [busWrite_bootActive, h]

/-- R86: no step starts boot mode again. -/
theorem step_bootEnded {s t : State} (hs : s.bootActive = false) (h : step s = .next t) : t.bootActive = false := by
  obtain ⟨-, u, hu, rfl⟩ := step_cases s t h
  exact hu.boot ((devicesStep_bootActive s).trans hs)

/-- R86: the shadow answers reads of its window while boot mode is on, and no others. -/
theorem Component.read_bootRom (base : Nat) (s : State) (a : Word) : Component.read (.bootRom base) s a =
    if s.bootActive = true ∧ a.toNat ≤ 0xFF then some (s.mem.read (base + a.toNat)) else none := by
  simp [Component.read, inBootWindow]

/-- Settles O46: a write is a fold over the list, each RAM's cell keeps the written byte through it, and a component
that answers no read of the address leaves the state to the next one. -/
theorem busWriteIsBroadcast : Obligations.BusWriteIsBroadcast :=
  ⟨fun _ a d _ _ hl => busWrite_of_append hl a d,
    fun _ _ d _ ⟨hwf, _⟩ hr ho => busWrite_mem_read_of_ram hwf hr ho d,
    fun _ d _ h => busWrite_addrBoot_bootActive h d, fun _ _ => step_bootEnded,
    fun _ _ d h => busWrite_keeps_bootActive h d, fun s a base => Component.read_bootRom base s a,
    fun _ _ d h hb => busWrite_eq_self h hb d⟩

end Sys2Proof.Machine
end

