-- ==== Sys2Proof/Proofs/BitEngine.lean ====
section
/-! SUPPORT. R160 to R169: what each function of the Bit Engine gives, bit by bit or as a number, for every width. -/

namespace Sys2Proof.Machine

/-! ## Mask, test, set, extract -/

/-- R160: bit `i` of the mask is 1 and no other. -/
theorem getLsbD_mask {w i : Nat} (h : i < w) (j : Nat) : (mask w i).getLsbD j = decide (j = i) := by
  have e : (mask w i).getLsbD j = (decide (i < w) && decide (i = j)) := BitVec.getLsbD_twoPow i j
  simp [e, h, eq_comm]

/-- R161: the test of a bit is the comparison of the one-bit field at its index. -/
theorem testBit_eq_decide_extractLsb' {w : Nat} (bits : BitVec w) (i : Nat) :
    testBit bits i = decide (bits.extractLsb' i 1 = 1#1) := by
  have e : bits.extractLsb' i 1 = BitVec.ofBool (testBit bits i) := by
    ext j hj
    obtain rfl : j = 0 := by omega
    simp [testBit]
  rw [e]
  cases testBit bits i <;> rfl

/-- R162: bit `i` is replaced, the others are kept. -/
theorem getLsbD_setBit {w i : Nat} (h : i < w) (bits : BitVec w) (j : Nat) (v : Bool) :
    (setBit bits i v).getLsbD j = if j = i then v else bits.getLsbD j := by
  by_cases hj : j = i
  · cases v <;> simp [setBit, getLsbD_mask h, hj]
  · cases v
    · simpa [setBit, getLsbD_mask h, hj] using BitVec.lt_of_getLsbD
    · simp [setBit, getLsbD_mask h, hj]

/-- R164: the quotient and remainder by powers of two read the field. -/
theorem extract_eq_toNat_extractLsb' {w : Nat} (bits : BitVec w) (start size : Nat) :
    extract bits start size = (bits.extractLsb' start size).toNat := by
  rw [BitVec.extractLsb'_toNat, Nat.shiftRight_eq_div_pow, extract]

/-! ## Bytes -/

/-- R166: widening by the sign keeps the signed meaning. -/
theorem toInt_signExtend8 (b : Byte) : (signExtend8 b).toInt = b.toInt :=
  BitVec.toInt_signExtend_of_le (by decide)

/-- R9: `sext16` adds 0xFF00 to a byte whose bit 7 is 1. -/
theorem sext16_eq_ite (b : Byte) :
    sext16 b = if b.getLsbD 7 then b.setWidth 16 + 0xFF00#16 else b.setWidth 16 := by
  apply BitVec.eq_of_toNat_eq
  have hb : b.toNat < 256 := b.isLt
  have hs : (sext16 b).toNat = (b.setWidth 16).toNat + if b.getLsbD 7 then 0xFF00 else 0 := BitVec.toNat_signExtend b
  rw [hs]
  split
  · rw [BitVec.toNat_add, BitVec.toNat_setWidth, BitVec.toNat_ofNat]
    omega
  · rfl

/-- R166: the low 16 bits of `signExtend8` are `sext16`. -/
theorem setWidth_signExtend8 (b : Byte) : (signExtend8 b).setWidth 16 = sext16 b := by
  ext i hi
  have hi' : i < 32 := by omega
  simp [signExtend8, sext16, BitVec.getElem_signExtend, hi']

/-- R169: joining two bytes is the shift and the or of the rule. -/
theorem make16_eq_shiftLeft_or (hi lo : Byte) : make16 hi lo = (hi.setWidth 16 <<< 8) ||| lo.setWidth 16 :=
  (BitVec.setWidth_eq _).symm.trans BitVec.setWidth_append_eq_shiftLeft_setWidth_or

/-- Settles O16: each function's lemma, the first four at width 32. -/
theorem bitEngine : Obligations.BitEngine :=
  ⟨fun _ j h => ⟨getLsbD_mask h j, rfl⟩, fun w i _ => testBit_eq_decide_extractLsb' w i,
    fun w _ j v h => getLsbD_setBit h w j v, fun w start size _ => extract_eq_toNat_extractLsb' w start size,
    fun b => ⟨toInt_signExtend8 b, setWidth_signExtend8 b, sext16_eq_ite b⟩, fun _ => rfl, make16_eq_shiftLeft_or⟩

end Sys2Proof.Machine
end

