-- ==== Sys2Proof/Proofs/AluPrimitives.lean ====
section
/-! SUPPORT. R175 to R189: the packed ALU result as a number and its two parts, the adder in exact arithmetic, the
logic operations, and the rotates through carry without the ninth bit. -/

namespace Sys2Proof.Machine

/-! ## The packed result -/

/-- R24: the flag byte as a number. -/
theorem packFlags_toNat (z n h c : Bool) :
    (packFlags z n h c).toNat = z.toNat * 128 + n.toNat * 64 + h.toNat * 32 + c.toNat * 16 := by
  cases z <;> cases n <;> cases h <;> cases c <;> rfl

section
variable {w : Nat} (r : AluResult w)

/-- R175: the value and the four flag bits at their weights. -/
theorem AluResult.pack_eq : r.pack =
    r.v.toNat * 256 + r.zf.toNat * 128 + r.nf.toNat * 64 + r.hf.toNat * 32 + r.cf.toNat * 16 := by
  rw [AluResult.pack, packFlags_toNat]
  omega

/-- R175: the value is what stands from bit 8 on. -/
@[simp] theorem unpackValue_pack : unpackValue r.pack = r.v.toNat := by
  have hf : (packFlags r.zf r.nf r.hf r.cf).toNat < 256 := BitVec.isLt _
  rw [unpackValue, AluResult.pack]
  omega

/-- R175: the flags are the low byte. -/
@[simp] theorem unpackFlags_pack : unpackFlags r.pack = packFlags r.zf r.nf r.hf r.cf := by
  apply BitVec.eq_of_toNat_eq
  have hf : (packFlags r.zf r.nf r.hf r.cf).toNat < 256 := BitVec.isLt _
  rw [unpackFlags, AluResult.pack, BitVec.toNat_ofNat]
  omega

/-- R175: bits 3 to 0 are 0. -/
theorem unpackFlags_pack_low : unpackFlags r.pack &&& 0x0F#8 = 0#8 := by
  rw [unpackFlags_pack, packFlags_low]

end

/-! ## Addition and logic -/

/-- A byte made of a number is 0 when the number is a multiple of 256. -/
theorem ofNat_beq_zero (n : Nat) : (BitVec.ofNat 8 n == 0#8) = decide (n % 256 = 0) := by
  simp [beq_eq_decide, BitVec.toNat_eq]

/-- R177: the sum as a byte sum, the two carries and the zero test from exact sums. -/
theorem add8_eq (l r : Byte) (c : Bool) : add8 l r c =
    { v := l + r + (BitVec.ofBool c).setWidth 8
      zf := decide ((l.toNat + r.toNat + c.toNat) % 256 = 0), nf := false
      hf := decide (16 ≤ l.toNat % 16 + r.toNat % 16 + c.toNat)
      cf := decide (256 ≤ l.toNat + r.toNat + c.toNat) } := by
  have hv : BitVec.ofNat 8 (l.toNat + r.toNat + c.toNat) = l + r + (BitVec.ofBool c).setWidth 8 := by
    rw [BitVec.ofNat_add, BitVec.ofNat_add, BitVec.ofNat_toNat, BitVec.ofNat_toNat, BitVec.setWidth_eq,
      BitVec.setWidth_eq, ← BitVec.toNat_ofBool, BitVec.ofNat_toNat]
  rw [add8, ofNat_beq_zero, hv]
  rfl

/-- R183. -/
theorem and8_eq (l r : Byte) : and8 l r = ⟨l &&& r, decide (l &&& r = 0#8), false, true, false⟩ := by
  rw [and8, beq_eq_decide]

/-- R183. -/
theorem or8_eq (l r : Byte) : or8 l r = ⟨l ||| r, decide (l ||| r = 0#8), false, false, false⟩ := by
  rw [or8, beq_eq_decide]

/-- R183: the exclusive or of two bytes is 0 when they are equal. -/
theorem xor8_eq (l r : Byte) : xor8 l r = ⟨l ^^^ r, decide (l = r), false, false, false⟩ := by
  simp only [xor8, beq_eq_decide, BitVec.xor_eq_zero_iff]

/-! ## Rotates through carry -/

/-- The common form of the shifts with its zero test as a proposition. -/
theorem shifted_eq (v : Byte) (c : Bool) : shifted v c = ⟨v, decide (v = 0#8), false, false, c⟩ := by
  rw [shifted, beq_eq_decide]

/-- R165: rotation by one place to the left. -/
theorem rotate_one {n : Nat} (h : 1 < n) (v : BitVec n) : rotate v 1 = (v <<< 1) ||| (v >>> (n - 1)) := by
  have hd : ((1 : Int) % n).toNat = 1 := by rw [Int.emod_eq_of_lt (by omega) (by omega)]; rfl
  simp only [rotate, hd]

/-- R165: rotation by one place to the right is rotation by `n - 1` places to the left. -/
theorem rotate_neg_one {n : Nat} (h : 1 < n) (v : BitVec n) : rotate v (-1) = (v <<< (n - 1)) ||| (v >>> 1) := by
  have hd : ((-1 : Int) % n).toNat = n - 1 := by
    rw [← Int.add_emod_right, Int.emod_eq_of_lt (by omega) (by omega)]
    omega
  have hk : n - (n - 1) = 1 := by omega
  simp only [rotate, hd, hk]

/-- R189: the ninth bit of the quantity `{c, v}` is the carry. -/
theorem getLsbD_ofBool_append (c : Bool) (v : Byte) (i : Nat) :
    (BitVec.ofBool c ++ v : BitVec 9).getLsbD i = if i < 8 then v.getLsbD i else decide (i = 8) && c := by
  rw [BitVec.getLsbD_append, BitVec.getLsbD_ofBool]
  split
  · rfl
  · have hi : i - 8 = 0 ↔ i = 8 := by omega
    simp only [hi]

/-- R189: to the left the carry enters at bit 0 and bit 7 leaves. -/
theorem rotateC8_left (v : Byte) (c : Bool) : rotateC8 .left v c =
    shifted ((v <<< 1) ||| (BitVec.ofBool c).setWidth 8) (v.getLsbD 7) := by
  rw [rotateC8]
  simp only [rotate_one (n := 9) (by decide)]
  congr 1
  · refine BitVec.eq_of_getLsbD_eq fun i hi => ?_
    simp only [BitVec.getLsbD_extractLsb', BitVec.getLsbD_or, BitVec.getLsbD_shiftLeft, BitVec.getLsbD_ushiftRight,
      BitVec.getLsbD_setWidth, BitVec.getLsbD_ofBool, getLsbD_ofBool_append]
    cases i with
    | zero => simp
    | succ n =>
      have hn : n < 8 := by omega
      have hn9 : n + 1 < 9 := by omega
      simp [hi, hn, hn9]
  · simp [-BitVec.getLsbD_eq_getElem, getLsbD_ofBool_append]

/-- R189: to the right the carry enters at bit 7 and bit 0 leaves. -/
theorem rotateC8_right (v : Byte) (c : Bool) : rotateC8 .right v c =
    shifted ((v >>> 1) ||| ((BitVec.ofBool c).setWidth 8 <<< 7)) (v.getLsbD 0) := by
  rw [rotateC8]
  simp only [rotate_neg_one (n := 9) (by decide)]
  congr 1
  · refine BitVec.eq_of_getLsbD_eq fun i hi => ?_
    simp only [BitVec.getLsbD_extractLsb', BitVec.getLsbD_or, BitVec.getLsbD_shiftLeft, BitVec.getLsbD_ushiftRight,
      BitVec.getLsbD_setWidth, BitVec.getLsbD_ofBool, getLsbD_ofBool_append]
    by_cases h : i = 7
    · simp [h]
    · have h7 : i < 7 := by omega
      have h8 : 1 + i < 8 := by omega
      simp [hi, h7, h8]
  · simp [-BitVec.getLsbD_eq_getElem, getLsbD_ofBool_append]

/-- Settles O18: each primitive's equation, the packed form at its two widths, and the two vectors of R177. -/
theorem aluPrimitives : Obligations.AluPrimitives :=
  ⟨fun r => ⟨r.pack_eq, unpackValue_pack r, unpackFlags_pack r, unpackFlags_pack_low r⟩,
    fun r => ⟨r.pack_eq, unpackValue_pack r, unpackFlags_pack r, unpackFlags_pack_low r⟩,
    add8_eq, by decide, by decide, fun l r => ⟨and8_eq l r, or8_eq l r, xor8_eq l r⟩,
    fun v c => ⟨(rotateC8_left v c).trans (shifted_eq _ _), (rotateC8_right v c).trans (shifted_eq _ _)⟩⟩

end Sys2Proof.Machine
end

