-- ==== Sys2Proof/Proofs/TimerStep.lean ====
section
/-! SUPPORT. R407, R408: the timer's step as an addition and an edge check, and the divider after any number of steps.
-/

namespace Sys2Proof.Machine

/-! ## One step -/

/-- R407: the edge check as a condition on the signal before and after the change. -/
theorem timerEdge_eq_ite (s0 : Bool) (s : State) :
    timerEdge s0 s = if s0 = true ∧ timerSignal s.timer = false then timaIncrement s else s := by
  simp [timerEdge]

/-- R408: the step adds 4 to the divider and increments TIMA where the signal falls. -/
theorem timerStep_eq_ite (s : State) : timerStep s =
    let t : State := { s with timer := { s.timer with div16 := s.timer.div16 + 4#16 } }
    if timerSignal s.timer = true ∧ timerSignal t.timer = false then timaIncrement t else t :=
  timerEdge_eq_ite _ _

/-! ## The divider -/

@[simp] theorem timaIncrement_div16 (s : State) : (timaIncrement s).timer.div16 = s.timer.div16 := by
  unfold timaIncrement
  split <;> rfl

@[simp] theorem timerEdge_div16 (s0 : Bool) (s : State) : (timerEdge s0 s).timer.div16 = s.timer.div16 := by
  unfold timerEdge
  split
  · exact timaIncrement_div16 s
  · rfl

/-- R408: an increment of TIMA or none, the divider gains 4. -/
@[simp] theorem timerStep_div16 (s : State) : (timerStep s).timer.div16 = s.timer.div16 + 4#16 :=
  timerEdge_div16 _ _

/-- R408: `n` steps add `4 * n` to the divider modulo 2^16. -/
theorem timerStep_iterate_div16 (n : Nat) (s : State) :
    (timerStep^[n] s).timer.div16 = s.timer.div16 + BitVec.ofNat 16 (4 * n) := by
  induction n with
  | zero => simp
  | succ n ih =>
    rw [Function.iterate_succ_apply', timerStep_div16, ih, BitVec.add_assoc, ← BitVec.ofNat_add, Nat.mul_succ]

/-- R8: the upper byte as a number. -/
theorem highByte_toNat (v : Word) : (highByte v).toNat = v.toNat / 256 := by
  have hv : v.toNat < 65536 := v.isLt
  rw [highByte, BitVec.extractLsb'_toNat, Nat.shiftRight_eq_div_pow]
  omega

/-- R35: 256 in the divider is 1 in DIV. -/
theorem highByte_add_256 (v : Word) : highByte (v + 256#16) = highByte v + 1#8 := by
  apply BitVec.eq_of_toNat_eq
  have hv : v.toNat < 65536 := v.isLt
  simp only [highByte_toNat, BitVec.toNat_add, BitVec.toNat_ofNat]
  omega

/-- Settles O41: the step is an addition and an edge check, 64 steps add 256 to the divider, and 16384 add 2^16. -/
theorem timerStepEveryTick : Obligations.TimerStepEveryTick := by
  refine ⟨fun s => ?_, fun s => ⟨?_, ?_⟩⟩
  · have hdiv : BitVec.ofNat 16 (s.timer.div16.toNat + 4) = s.timer.div16 + 4#16 := by
      rw [BitVec.ofNat_add, BitVec.ofNat_toNat, BitVec.setWidth_eq]
    rw [hdiv]
    exact timerStep_eq_ite s
  · rw [timerStep_iterate_div16]
    exact highByte_add_256 _
  · rw [timerStep_iterate_div16]
    exact BitVec.add_zero _

end Sys2Proof.Machine
end

