-- ==== Sys2Proof/Proofs/DeviceRegisters.lean ====
section
/-! SUPPORT. R80 to R85, R451: which addresses each component answers, the access of an address with one owner, and the
registers of the picture unit and the timer. -/

namespace Sys2Proof.Machine

/-! ## The addresses of a component -/

/-- R39: the twelve registers stand at 0xFF40 to 0xFF4B. -/
theorem PpuReg.ofAddr_isSome_iff (a : Word) :
    (PpuReg.ofAddr a).isSome = true ↔ 0xFF40 ≤ a.toNat ∧ a.toNat ≤ 0xFF4B := by
  simp only [PpuReg.ofAddr, apply_ite Option.isSome, Option.isSome_some, Option.isSome_none, ← BitVec.toNat_inj,
    BitVec.toNat_ofNat, Bool.if_true_left, Bool.or_eq_true, decide_eq_true_eq, Bool.or_false]
  omega

/-- R80: the CPU answers nothing below high RAM but IF. -/
theorem Component.read_cpu_eq_none {a : Word} (h : a.toNat < 0xFF0F ∨ 0xFF0F < a.toNat ∧ a.toNat < 0xFF80)
    (s : State) : Component.read .cpu s a = none := by
  have hie : a ≠ addrIE := by
    rintro rfl
    exact absurd h (by decide)
  have hif : a ≠ addrIF := by
    rintro rfl
    exact absurd h (by decide)
  have hhr : inHighRam a = false := by
    simp only [inHighRam, Bool.and_eq_false_iff, decide_eq_false_iff_not]
    omega
  simp [Component.read, hie, hif, hhr]

/-- R81: the timer's four registers stand at 0xFF04 to 0xFF07, and it answers nothing else. -/
theorem Component.read_timer_isSome_iff (s : State) (a : Word) :
    (Component.read .timer s a).isSome = true ↔ 0xFF04 ≤ a.toNat ∧ a.toNat ≤ 0xFF07 := by
  simp only [Component.read, addrDIV, addrTIMA, addrTMA, addrTAC, apply_ite Option.isSome, Option.isSome_some,
    Option.isSome_none, ← BitVec.toNat_inj, BitVec.toNat_ofNat, Bool.if_true_left, Bool.or_eq_true,
    decide_eq_true_eq, Bool.or_false]
  omega

/-- R81: outside its registers the timer answers nothing. -/
theorem Component.read_timer_eq_none {a : Word} (h : a.toNat < 0xFF04 ∨ 0xFF07 < a.toNat) (s : State) :
    Component.read .timer s a = none := by
  rw [← Option.not_isSome_iff_eq_none, read_timer_isSome_iff]
  omega

/-- R48, R49: video RAM and OAM end at 0xFE9F. -/
theorem inVram_inOam_eq_false {a : Word} (h : 0xFE9F < a.toNat) : inVram a = false ∧ inOam a = false := by
  simp only [inVram, inOam, Bool.and_eq_false_iff, decide_eq_false_iff_not]
  omega

/-- R82: above OAM the picture unit answers its registers only. -/
theorem Component.read_ppu_of_oam_lt {a : Word} (h : 0xFE9F < a.toNat) (s : State) :
    Component.read .ppu s a = (PpuReg.ofAddr a).map s.ppu.readReg := by
  obtain ⟨hv, ho⟩ := inVram_inOam_eq_false h
  simp [Component.read, hv, ho]

/-- R82: between OAM and its registers, and above them, the picture unit answers nothing. -/
theorem Component.read_ppu_eq_none {a : Word} (ho : 0xFE9F < a.toNat) (hr : a.toNat < 0xFF40 ∨ 0xFF4B < a.toNat)
    (s : State) : Component.read .ppu s a = none := by
  rw [read_ppu_of_oam_lt ho, Option.map_eq_none_iff, ← Option.not_isSome_iff_eq_none, PpuReg.ofAddr_isSome_iff]
  omega

/-- R90: the default platform's storage ends at 0xFDFF. -/
theorem Component.read_default_storage_eq_none {x : Component} (hx : x ∈ [cartridgeRom, workRam, echoRam]) {a : Word}
    (h : 0xFE00 ≤ a.toNat) (s : State) : x.read s a = none := by
  have hend : ∀ r : Region, r.start + r.size ≤ 0xFE00 → r.owns a = false := by
    intro r hr
    simp only [Region.owns, Bool.and_eq_false_iff, decide_eq_false_iff_not]
    omega
  simp only [List.mem_cons, List.not_mem_nil, or_false] at hx
  obtain rfl | rfl | rfl := hx <;> simp [cartridgeRom, workRam, echoRam, Component.read, hend]

/-! ## An address with one owner -/

/-- R71, R74: components that answer no read of an address pass a write on unchanged. -/
theorem foldl_write_eq_self {cs : List Component} {a : Word} (h : ∀ x ∈ cs, ∀ t : State, x.read t a = none)
    (ha : a ≠ addrBoot) (d : Byte) (s : State) : cs.foldl (fun t c => c.write a d t) s = s := by
  refine List.foldlRecOn (motive := (· = s)) cs _ rfl fun t ht c hc => ?_
  subst ht
  exact Component.write_eq_self_of_read_eq_none (h c hc t) (.inr ha) d

/-- R73, R74: where one component of the list answers and no other does, the bus brings every access to it alone. -/
theorem bus_eq_of_unique_owner {s : State} {a : Word} {before after : List Component} {c : Component}
    (hl : s.platform.components = before ++ c :: after) (hb : ∀ x ∈ before, ∀ t : State, x.read t a = none)
    (haft : ∀ x ∈ after, ∀ t : State, x.read t a = none) (hc : (c.read s a).isSome = true) (ha : a ≠ addrBoot)
    (d : Byte) : s.busWrite a d = c.write a d s ∧ some (s.busRead a) = c.read s a := by
  constructor
  · rw [busWrite_of_append hl, List.foldl_cons, foldl_write_eq_self hb ha, foldl_write_eq_self haft ha]
  · obtain ⟨v, hv⟩ := Option.isSome_iff_exists.mp hc
    rw [hv, busRead_of_first_owner hl (fun x hx => hb x hx s) hv]

/-- R82, R90: on the default platform the picture unit alone owns its register block. -/
theorem bus_eq_ppu {s : State} (hp : s.platform = Platform.default) {a : Word} (hlo : 0xFF40 ≤ a.toNat)
    (hhi : a.toNat ≤ 0xFF4B) (d : Byte) :
    s.busWrite a d = Component.write .ppu a d s ∧ some (s.busRead a) = Component.read .ppu s a := by
  refine bus_eq_of_unique_owner (before := [.cpu, .timer]) (after := [cartridgeRom, workRam, echoRam])
    (by rw [hp]; rfl) ?_ ?_ ?_ ?_ d
  · simp only [List.forall_mem_cons, List.not_mem_nil, false_imp_iff, implies_true, and_true]
    exact ⟨Component.read_cpu_eq_none (by omega), Component.read_timer_eq_none (by omega)⟩
  · exact fun x hx => Component.read_default_storage_eq_none hx (by omega)
  · rw [Component.read_ppu_of_oam_lt (by omega), Option.isSome_map, PpuReg.ofAddr_isSome_iff]
    exact ⟨hlo, hhi⟩
  · rintro rfl
    exact absurd hhi (by decide)

/-- R81, R90: on the default platform the timer alone owns its register block. -/
theorem bus_eq_timer {s : State} (hp : s.platform = Platform.default) {a : Word} (hlo : 0xFF04 ≤ a.toNat)
    (hhi : a.toNat ≤ 0xFF07) (d : Byte) :
    s.busWrite a d = Component.write .timer a d s ∧ some (s.busRead a) = Component.read .timer s a := by
  refine bus_eq_of_unique_owner (before := [.cpu]) (after := .ppu :: [cartridgeRom, workRam, echoRam])
    (by rw [hp]; rfl) ?_ ?_ ?_ ?_ d
  · exact List.forall_mem_singleton.mpr (Component.read_cpu_eq_none (by omega))
  · exact List.forall_mem_cons.mpr ⟨Component.read_ppu_eq_none (by omega) (by omega),
      fun x hx => Component.read_default_storage_eq_none hx (by omega)⟩
  · exact (Component.read_timer_isSome_iff s a).mpr ⟨hlo, hhi⟩
  · rintro rfl
    exact absurd hhi (by decide)

/-! ## The registers -/

/-- R82, R451: at a register's address the picture unit's write is the register's. -/
theorem Component.write_ppu_of_ofAddr {a : Word} {r : PpuReg} (h : PpuReg.ofAddr a = some r) (d : Byte) (s : State) :
    Component.write .ppu a d s = writePpuReg r d s := by
  have hr : 0xFF40 ≤ a.toNat ∧ a.toNat ≤ 0xFF4B := (PpuReg.ofAddr_isSome_iff a).mp (by rw [h]; rfl)
  obtain ⟨hv, ho⟩ := inVram_inOam_eq_false (a := a) (by omega)
  simp [Component.write, hv, ho, h]

/-- R451, R453: a write to LCDC that does not turn a running LCD off stores the byte. -/
theorem writePpuReg_LCDC {d : Byte} {s : State} (h : d.getLsbD 7 = true ∨ s.ppu.lcdActive = false) :
    writePpuReg .LCDC d s = { s with ppu := { s.ppu with lcdc := d } } := by
  have hoff : (!d.getLsbD 7 && s.ppu.lcdActive) = false := by
    obtain h | h := h <;> simp [h]
  exact if_neg (Bool.eq_false_iff.mp hoff)

/-- Settles O60: the two components' registers by address, and the owner of each block on the default platform. -/
theorem plainRegisterWrites : Obligations.PlainRegisterWrites := by
  intro s d
  have hppu := fun (r : PpuReg) (a : Word) (h : PpuReg.ofAddr a = some r) => Component.write_ppu_of_ofAddr h d s
  exact ⟨⟨hppu .STAT _ rfl, hppu .LY _ rfl, fun h => (hppu .LCDC _ rfl).trans (writePpuReg_LCDC h),
      hppu .SCY _ rfl, hppu .SCX _ rfl, hppu .BGP _ rfl, hppu .OBP0 _ rfl, hppu .OBP1 _ rfl, hppu .WY _ rfl,
      hppu .WX _ rfl, rfl, rfl⟩,
    rfl, rfl,
    fun hp => ⟨fun _ hlo hhi => bus_eq_ppu hp hlo hhi d, fun _ hlo hhi => bus_eq_timer hp hlo hhi d⟩⟩

end Sys2Proof.Machine
end

