-- ==== Sys2Proof/Proofs/BitVectors.lean ====
section
/-! SUPPORT. R482 to R485: what each extraction and the shift of bit vectors give, column by column, for every
length. -/

namespace Sys2Proof.Machine

/-- R482: column by column. -/
theorem getLsbD_extractZeroExtended {n size i : Nat} (v : BitVec n) (start : Int) (h : i < size) :
    (extractZeroExtended v start size).getLsbD i = (decide (0 ≤ start + i) && v.getLsbD (start + i).toNat) := by
  unfold extractZeroExtended
  split
  case isTrue hs =>
    have e : (start + i).toNat = start.toNat + i := by omega
    have h0 : 0 ≤ start + i := by omega
    simp [e, h0, h]
  case isFalse hs =>
    by_cases h0 : 0 ≤ start + i
    · have e : (start + i).toNat = i - (-start).toNat := by omega
      have hd : ¬ i < (-start).toNat := by omega
      simp [e, h0, h, hd]
    · have hd : i < (-start).toNat := by omega
      simp [h0, hd]

/-- R483: column by column. -/
theorem getLsbD_extractWrapped {n size i : Nat} (v : BitVec n) (start : Int) (hn : 0 < n) (h : i < size) :
    (extractWrapped v start size).getLsbD i = v.getLsbD ((start + i) % (n : Int)).toNat := by
  have hs : 0 ≤ start % (n : Int) := Int.emod_nonneg start (by omega)
  have hlt : start % (n : Int) < n := Int.emod_lt_of_pos start (by omega)
  obtain ⟨k, hk⟩ := Int.eq_ofNat_of_zero_le hs
  have hin : k + i < n * (size / n + 2) := by
    have hsize : size < n * (size / n + 1) := Nat.lt_mul_div_succ size hn
    rw [Nat.mul_succ]
    omega
  have e : ((start + i) % (n : Int)).toNat = (k + i) % n := by
    rw [← Int.emod_add_emod, hk]
    norm_cast
  rw [extractWrapped, BitVec.getLsbD_setWidth, BitVec.getLsbD_ushiftRight, BitVec.getLsbD_replicate, e, hk]
  simp [h, hin]

/-- R484: column by column. -/
theorem getLsbD_shiftVector {n i : Nat} (v : BitVec n) (k : Int) (h : i < n) :
    (shiftVector v k).getLsbD i = (decide (k ≤ i) && v.getLsbD ((i : Int) - k).toNat) := by
  have e : -k + (i : Int) = i - k := by omega
  simp only [shiftVector, getLsbD_extractZeroExtended v (-k) h, e, Int.sub_nonneg]

/-- R485: wrapped extraction of the whole vector. -/
theorem extractWrapped_zero_self {n : Nat} (v : BitVec n) (hn : 0 < n) : extractWrapped v 0 n = v := by
  refine BitVec.eq_of_getLsbD_eq fun i hi => ?_
  have e : ((0 + i : Int) % n).toNat = i := by
    rw [zero_add, Int.emod_eq_of_lt (by omega) (by omega), Int.toNat_natCast]
  rw [getLsbD_extractWrapped v 0 hn hi, e]

/-- R485: nothing stands past the end. -/
theorem extractZeroExtended_length {n : Nat} (v : BitVec n) (size : Nat) : extractZeroExtended v n size = 0#size := by
  refine BitVec.eq_of_getLsbD_eq fun i hi => ?_
  have e : ((n : Int) + i).toNat = n + i := by omega
  simp [getLsbD_extractZeroExtended v n hi, e]

/-- Settles O53: each extraction's column lemma, and the two laws of R485 from them. -/
theorem bitVectorExtraction : Obligations.BitVectorExtraction :=
  ⟨fun _ _ v start _ h => getLsbD_extractZeroExtended v start h,
    fun _ _ v start _ hn h => getLsbD_extractWrapped v start hn h,
    fun _ v k => ⟨rfl, fun _ h => getLsbD_shiftVector v k h⟩,
    fun _ size v hn => ⟨extractWrapped_zero_self v hn, extractZeroExtended_length v size⟩⟩

end Sys2Proof.Machine
end

