-- ==== Sys2Proof/Proofs/Scanlines.lean ====
section
/-! SUPPORT. R475, R486 to R491: what each operation on scanlines gives, pixel by pixel, and the planes of a line of
tile rows. -/

namespace Sys2Proof.Machine

/-! ## Palettes -/

/-- R475: the palette entry is the field of two bits at `2 * i`. -/
theorem palette_eq_extractLsb' (p : Byte) (i : BitVec 2) : palette p i = p.extractLsb' (2 * i.toNat) 2 :=
  BitVec.setWidth_ushiftRight_eq_extractLsb

/-- R488: 0xE4 is the identity palette. -/
@[simp] theorem palette_identity (i : BitVec 2) : palette 0xE4#8 i = i := by
  revert i
  decide

/-! ## Pixels of the operations on lines -/

/-- A colour is its two bits. -/
theorem ofBool_append_getLsbD (c : BitVec 2) : BitVec.ofBool (c.getLsbD 1) ++ BitVec.ofBool (c.getLsbD 0) = c := by
  revert c
  decide

/-- R486: the upper bit of a pixel's colour. -/
theorem LcdImageLine.getLsbD_colour_one {n : Nat} (L : LcdImageLine n) (i : Nat) :
    (L.colour i).getLsbD 1 = L.msb.getLsbD i := by
  rw [LcdImageLine.colour, BitVec.getLsbD_append]
  exact BitVec.getLsbD_ofBool ..

/-- R486: the lower bit of a pixel's colour. -/
theorem LcdImageLine.getLsbD_colour_zero {n : Nat} (L : LcdImageLine n) (i : Nat) :
    (L.colour i).getLsbD 0 = L.lsb.getLsbD i := by
  rw [LcdImageLine.colour, BitVec.getLsbD_append]
  exact BitVec.getLsbD_ofBool ..

section
variable {n i : Nat} (h : i < n)

theorem getLsbD_gate (b : Bool) (v : BitVec n) : (gate b v).getLsbD i = (b && v.getLsbD i) := by
  cases b <;> simp [gate]

include h

/-- R488: of the four terms of a plane the one of the pixel's colour remains. -/
theorem getLsbD_recolourPlane (L : LcdImageLine n) (p : Byte) (j : Nat) :
    (recolourPlane L p j).getLsbD i = (palette p (L.colour i)).getLsbD j := by
  simp only [recolourPlane, BitVec.getLsbD_or, getLsbD_gate, BitVec.getLsbD_and, BitVec.getLsbD_not, h,
    LcdImageLine.colour]
  cases L.msb.getLsbD i <;> cases L.lsb.getLsbD i <;> simp

/-- R488: the colour is looked up in the palette. -/
theorem LcdImageLine.colour_mapColors (L : LcdImageLine n) (p : Byte) :
    (L.mapColors p).colour i = palette p (L.colour i) := by
  rw [LcdImageLine.colour, LcdImageLine.mapColors, getLsbD_recolourPlane h, getLsbD_recolourPlane h,
    ofBool_append_getLsbD]

/-- R489, R490: a plane composed of two under a mask. -/
theorem getLsbD_select (m x y : BitVec n) :
    ((x &&& m) ||| (y &&& ~~~m)).getLsbD i = if m.getLsbD i then x.getLsbD i else y.getLsbD i := by
  rw [BitVec.getLsbD_or, BitVec.getLsbD_and, BitVec.getLsbD_and, BitVec.getLsbD_not]
  cases m.getLsbD i <;> simp [-BitVec.getLsbD_eq_getElem, h]

/-- R489: the upper layer's colour under the mask. -/
theorem LcdImageLine.colour_belowMask (A B : LcdImageLine n) (mask : BitVec n) :
    (A.belowMask B mask).colour i = if mask.getLsbD i then B.colour i else A.colour i := by
  simp only [LcdImageLine.colour, LcdImageLine.belowMask, getLsbD_select h]
  split <;> rfl

/-- R490: the left mask has the columns below `k`. -/
theorem getLsbD_leftMask (k : Nat) : (leftMask n k).getLsbD i = decide (i < k) := by
  rw [leftMask, BitVec.getLsbD_ofNat, Nat.testBit_two_pow_sub_one, decide_eq_true h, Bool.true_and]

/-- R490: the first line's colour below `k`, the second's from `k` on. -/
theorem LcdImageLine.colour_join (A B : LcdImageLine n) (k : Nat) :
    (A.join B k).colour i = if i < k then A.colour i else B.colour i := by
  simp only [LcdImageLine.colour, LcdImageLine.join, getLsbD_select h, getLsbD_leftMask h, decide_eq_true_eq]
  split <;> rfl

/-- R490: the opacity is joined as the colours are. -/
theorem LcdImageLine.opaqueAt_join (A B : LcdImageLine n) (k : Nat) :
    (A.join B k).opaqueAt i = if i < k then A.opaqueAt i else B.opaqueAt i := by
  simp only [LcdImageLine.opaqueAt, LcdImageLine.join, getLsbD_select h, getLsbD_leftMask h, decide_eq_true_eq]

end

/-- R488: the identity palette changes nothing. -/
theorem LcdImageLine.mapColors_identity {n : Nat} (L : LcdImageLine n) : L.mapColors 0xE4#8 = L := by
  have hm : recolourPlane L 0xE4#8 1 = L.msb := BitVec.eq_of_getLsbD_eq fun i hi => by
    rw [getLsbD_recolourPlane hi, palette_identity, L.getLsbD_colour_one]
  have hl : recolourPlane L 0xE4#8 0 = L.lsb := BitVec.eq_of_getLsbD_eq fun i hi => by
    rw [getLsbD_recolourPlane hi, palette_identity, L.getLsbD_colour_zero]
  rw [LcdImageLine.mapColors, hm, hl]

/-! ## Lines of tile rows -/

/-- R167: bit `k` of the reversed byte. -/
theorem getLsbD_reverse8 (b : Byte) {k : Nat} (hk : k < 8) : (reverse8 b).getLsbD k = b.getLsbD (7 - k) := by
  unfold reverse8
  change BitVec.getLsbD (w := 1 + 1 + 1 + 1 + 1 + 1 + 1 + 1) _ k = _
  simp only [BitVec.getLsbD_append, BitVec.getLsbD_extractLsb']
  interval_cases k <;> rfl

/-- R491: bit `k` of byte `j` of a plane stands at `8 j + k`. -/
theorem testBit_planeOfBytes (bs : List Byte) (j : Nat) {k : Nat} (hk : k < 8) :
    (planeOfBytes bs).testBit (8 * j + k) = (bs.getD j 0#8).getLsbD k := by
  induction bs generalizing j with
  | nil => simp [planeOfBytes]
  | cons b bs ih =>
    have e := Nat.testBit_two_pow_mul_add (planeOfBytes bs) b.isLt (8 * j + k)
    rw [planeOfBytes, Nat.add_comm, e]
    cases j with
    | zero =>
      rw [Nat.mul_zero, Nat.zero_add, if_pos hk]
      rfl
    | succ j =>
      have hge : ¬ 8 * (j + 1) + k < 8 := by omega
      have hsub : 8 * (j + 1) + k - 8 = 8 * j + k := by omega
      rw [if_neg hge, hsub, ih j, List.getD_cons_succ]

/-- R491: a plane of reversed pattern bytes. -/
theorem getLsbD_tilePlane (g : Nat → Byte) {j k : Nat} (hj : j < 32) (hk : k < 8) :
    (BitVec.ofNat 256 (planeOfBytes ((List.range 32).map fun j => reverse8 (g j)))).getLsbD (8 * j + k) =
      (g j).getLsbD (7 - k) := by
  have hlt : 8 * j + k < 256 := by omega
  rw [BitVec.getLsbD_ofNat, testBit_planeOfBytes _ j hk, ← getLsbD_reverse8 (g j) hk]
  simp [hlt, hj, List.getD_eq_getElem?_getD]

/-- R491: column `8 j + k` of the least significant plane. -/
theorem lineFromTiles_lsb (f : Nat → Byte × Byte) {j k : Nat} (hj : j < 32) (hk : k < 8) :
    (lineFromTiles f).lsb.getLsbD (8 * j + k) = (f j).1.getLsbD (7 - k) :=
  getLsbD_tilePlane (fun j => (f j).1) hj hk

/-- R491: column `8 j + k` of the most significant plane. -/
theorem lineFromTiles_msb (f : Nat → Byte × Byte) {j k : Nat} (hj : j < 32) (hk : k < 8) :
    (lineFromTiles f).msb.getLsbD (8 * j + k) = (f j).2.getLsbD (7 - k) :=
  getLsbD_tilePlane (fun j => (f j).2) hj hk

/-- R486: a line of tile rows is opaque where a plane is 1. -/
theorem lineFromTiles_opaqueAt (f : Nat → Byte × Byte) {j k : Nat} (hj : j < 32) (hk : k < 8) :
    (lineFromTiles f).opaqueAt (8 * j + k) = ((f j).1.getLsbD (7 - k) || (f j).2.getLsbD (7 - k)) := by
  rw [← lineFromTiles_lsb f hj hk, ← lineFromTiles_msb f hj hk, Bool.or_comm]
  exact BitVec.getLsbD_or

/-- Settles O54: each operation's pixel lemma. -/
theorem scanlineAlgebra : Obligations.ScanlineAlgebra :=
  ⟨fun p i => ⟨palette_eq_extractLsb' p i, palette_identity i⟩,
    fun _ L p _ h => ⟨L.colour_mapColors h p, rfl, L.mapColors_identity⟩,
    fun _ A B mask _ h => ⟨A.colour_belowMask h B mask, rfl, rfl⟩,
    fun _ k A B _ _ h => ⟨A.colour_join h B k, A.opaqueAt_join h B k⟩,
    fun _ _ _ _ => ⟨rfl, rfl⟩,
    fun f _ _ hj hk => ⟨lineFromTiles_lsb f hj hk, lineFromTiles_msb f hj hk, lineFromTiles_opaqueAt f hj hk⟩⟩

end Sys2Proof.Machine
end

