-- ==== Sys2Proof/Proofs/VblankEntry.lean ====
section
/-! SUPPORT. R456, R500: the start of line 144, and the image that a frame with filled slots becomes. -/

namespace Sys2Proof.Machine

/-! ## The requests of the status logic -/

@[simp] theorem dmaStep_iflag (s : State) : (dmaStep s).iflag = s.iflag := by
  unfold dmaStep
  split <;> rfl

/-- R457: the mode's request, which mode 3 has not. -/
theorem setMode_iflag (m : Nat) (s : State) : (setMode m s).iflag =
    s.iflag ||| (if m ≠ 3 ∧ s.ppu.stat.getLsbD (3 + m) = true then 0x02#8 else 0#8) := by
  unfold setMode
  dsimp only
  split
  · rfl
  · exact BitVec.or_zero.symm

/-- R458: the coincidence's request. -/
theorem coincidence_iflag (s : State) : (coincidence s).iflag =
    s.iflag ||| (if s.ppu.ly = s.ppu.lyc ∧ s.ppu.stat.getLsbD 6 = true then 0x02#8 else 0#8) := by
  unfold coincidence
  by_cases hly : s.ppu.ly = s.ppu.lyc
  · cases hb : s.ppu.stat.getLsbD 6
    · simp [hly]
    · simp [hly, requestInterrupt, mask, Line.index]
  · simp [hly]

/-- R455, R458: a new LY requests what the coincidence does. -/
theorem setLY_iflag (v : Byte) (s : State) : (setLY v s).iflag =
    s.iflag ||| (if v = s.ppu.lyc ∧ s.ppu.stat.getLsbD 6 = true then 0x02#8 else 0#8) :=
  coincidence_iflag { s with ppu := { s.ppu with ly := v } }

/-- R456: the VBLANK request. -/
theorem vblankEntry_iflag (s : State) : (vblankEntry s).iflag = s.iflag ||| 0x01#8 := rfl

/-- R30: LCD_STAT is bit 1 of IF. -/
theorem getLsbD_one_ite_lcdStat (c : Prop) [Decidable c] :
    (if c then 0x02#8 else 0#8).getLsbD 1 = decide c := by
  split <;> simp [*]

/-- R41, R457, R458: STAT after a change of mode and a coincidence check. -/
theorem setBit2_statWithMode {m : Byte} (hm : m.getLsbD 2 = false) (stat : Byte) (c : Bool) :
    setBit (statWithMode stat m) 2 c = (stat &&& 0xF8#8) ||| m ||| (if c then 0x04#8 else 0#8) := by
  refine BitVec.eq_of_getLsbD_eq fun i hi => ?_
  rw [getLsbD_setBit (by decide)]
  split
  case isTrue h2 =>
    subst h2
    cases c <;> simp [-BitVec.getLsbD_eq_getElem, hm]
  case isFalse h2 =>
    have hmask : (0xF8#8).getLsbD i = (0xFC#8).getLsbD i := by
      revert h2
      interval_cases i <;> decide
    have hbit : (if c then 0x04#8 else 0#8).getLsbD i = false := by
      revert h2
      cases c <;> interval_cases i <;> decide
    simp only [statWithMode, BitVec.getLsbD_or, BitVec.getLsbD_and, hmask, hbit, Bool.or_false]

/-! ## The latch -/

/-- R500: a frame with filled slots becomes the colours of its lines. -/
theorem latchFrom_map_some (c r : Nat) (rows : List (LcdImageLine 160)) :
    latchFrom c r (rows.map some) = rows.map LcdImageLine.colours := by
  induction rows generalizing r with
  | nil => rfl
  | cons L rest ih => rw [List.map_cons, List.map_cons, latchFrom, latchRow, ih]

/-- R500: column `x` of a latched row. -/
theorem LcdImageLine.getD_colours (L : LcdImageLine 160) {x : Nat} (hx : x < 160) :
    L.colours.getD x 0#2 = L.colour x := by
  simp [LcdImageLine.colours, List.getD_eq_getElem?_getD, hx]

/-! ## Line 144's start -/

/-- R450: while the LCD runs, the step is the copy's step and the action at the frame's position. -/
theorem ppuStep_of_lcdActive {s : State} (ha : s.ppu.lcdActive = true) :
    ppuStep s = lcdAction (framePosition s) (dmaStep s) := by
  obtain ⟨oam, idx, act, e⟩ := dmaStep_ppu s
  have ha' : (dmaStep s).ppu.lcdActive = true := by rw [e, ha]
  have hstart : lcdStart (dmaStep s) = dmaStep s := by
    rw [lcdStart, ha']
    rfl
  obtain ⟨-, -, -, -, -, -, -, hc, -⟩ := dmaStep_sameCpu s
  rw [ppuStep, hstart, lcdStep, if_pos ha', framePosition, framePosition, hc, e]

/-- R450, R456: the start of line 144. -/
theorem lineStart_144 (s : State) : lineStart 144 s = vblankEntry (setLY 144#8 (setMode 1 s)) := rfl

/-- R454 to R458, R500: what line 144's start leaves in the picture unit. -/
theorem lineStart_144_ppu (s : State) : (lineStart 144 s).ppu = { s.ppu with
    ly := 144#8
    stat := (s.ppu.stat &&& 0xF8#8) ||| 1#8 ||| (if s.ppu.lyc = 144#8 then 0x04#8 else 0#8)
    currentImage := latchFrom s.cycles 0 s.ppu.nextFrame } := by
  obtain ⟨-, -, -, -, -, -, -, hc, -⟩ :=
    State.sameCpu_trans (setMode_sameCpu 1 s) (setLY_sameCpu 144#8 (setMode 1 s))
  rw [lineStart_144, vblankEntry_ppu, hc, setLY_ppu, setMode_ppu, setBit2_statWithMode rfl]
  simp only [decide_eq_true_eq, @eq_comm _ 144#8]

/-- R456 to R458: what line 144's start requests. -/
theorem lineStart_144_iflag (s : State) : (lineStart 144 s).iflag =
    s.iflag ||| (if s.ppu.stat.getLsbD 4 = true then 0x02#8 else 0#8) |||
      (if s.ppu.lyc = 144#8 ∧ s.ppu.stat.getLsbD 6 = true then 0x02#8 else 0#8) ||| 0x01#8 := by
  have h6 : (statWithMode s.ppu.stat 1#8).getLsbD 6 = s.ppu.stat.getLsbD 6 := by simp [statWithMode]
  rw [lineStart_144, vblankEntry_iflag, setLY_iflag, setMode_iflag, setMode_ppu]
  simp only [h6, ne_eq, OfNat.one_ne_ofNat, not_false_eq_true, true_and, Nat.reduceAdd, @eq_comm _ 144#8]

/-- R454: while the LCD runs, position 16416 is the start of line 144. -/
theorem ppuStep_eq_lineStart_144 {s : State} (ha : s.ppu.lcdActive = true)
    (hp : (s.cycles - s.ppu.lcdOnCycle) % 17556 = 16416) : ppuStep s = lineStart 144 (dmaStep s) := by
  have hpos : framePosition s = 16416 := hp
  rw [ppuStep_of_lcdActive ha, hpos]
  rfl

/-- Settles O50: the step is line 144's start after the copy's step, which leaves the frame and the status. -/
theorem vblankLatchesTheFrame : Obligations.VblankLatchesTheFrame := by
  intro s rows ha hp hf
  obtain ⟨oam, idx, act, e⟩ := dmaStep_ppu s
  rw [ppuStep_eq_lineStart_144 ha hp, lineStart_144_ppu, lineStart_144_iflag, dmaStep_iflag, e]
  dsimp only
  rw [hf, latchFrom_map_some]
  refine ⟨?_, List.length_map _, ?_, ?_, rfl, rfl⟩
  · intro r x L hr hx
    have hrow : (rows.map LcdImageLine.colours).getD r [] = L.colours := by
      rw [List.getD_eq_getElem?_getD, List.getElem?_map, hr]
      rfl
    rw [hrow, L.getD_colours hx]
  · rw [BitVec.getLsbD_or]
    exact Bool.or_true _
  · simp only [BitVec.getLsbD_or, getLsbD_one_ite_lcdStat, Bool.decide_and, Bool.decide_eq_true]
    exact Bool.or_false _

end Sys2Proof.Machine
end

