-- ==== Sys2Proof/Proofs/Encoding.lean ====
section
/-! SUPPORT. R120 to R133: the decoder and the encoder undo each other, and the length of an instruction's bytes is the
table's. -/

namespace Sys2Proof.Machine

open Sys2Proof.Laws

/-! ## Decoding what the encoder writes -/

/-- R120, R122: a word operand is read back by its two bytes, everything else by the decoder's computation. -/
theorem decode_encode_append (i : Instr) : RoundTrip.Statement i := by
  cases i
  case PREFIX_CB => exact RoundTrip.PREFIX_CB
  case LD_BC_n16 n => exact RoundTrip.LD_BC_n16 n
  case LD_DE_n16 n => exact RoundTrip.LD_DE_n16 n
  case LD_HL_n16 n => exact RoundTrip.LD_HL_n16 n
  case LD_SP_n16 n => exact RoundTrip.LD_SP_n16 n
  case LD_atn16_SP n => exact RoundTrip.LD_atn16_SP n
  case LD_atn16_A n => exact RoundTrip.LD_atn16_A n
  case LD_A_atn16 n => exact RoundTrip.LD_A_atn16 n
  case JP_n16 n => exact RoundTrip.JP_n16 n
  case JP_NZ_n16 n => exact RoundTrip.JP_NZ_n16 n
  case JP_Z_n16 n => exact RoundTrip.JP_Z_n16 n
  case JP_NC_n16 n => exact RoundTrip.JP_NC_n16 n
  case JP_C_n16 n => exact RoundTrip.JP_C_n16 n
  case CALL_n16 n => exact RoundTrip.CALL_n16 n
  case CALL_NZ_n16 n => exact RoundTrip.CALL_NZ_n16 n
  case CALL_Z_n16 n => exact RoundTrip.CALL_Z_n16 n
  case CALL_NC_n16 n => exact RoundTrip.CALL_NC_n16 n
  case CALL_C_n16 n => exact RoundTrip.CALL_C_n16 n
  all_goals exact fun _ _ => rfl

/-- Settles O1: one lemma of the family for each constructor. -/
theorem decodeInvertsEncode : Obligations.DecodeInvertsEncode :=
  fun i rest h => decode_encode_append i h rest

/-! ## Encoding what the decoder reads -/

/-- R133: the prefixed table, byte by byte. -/
theorem encode_decodePrefixed (b : Byte) : encode (decodePrefixed b) = [prefixByte, b] := by
  revert b
  decide

/-- The operand bytes that the encoder writes after a first byte `b`, out of the two bytes that the decoder read. -/
def operandBytes (b n0 n1 : Byte) : List Byte :=
  match lengthOf b with
  | 1 => []
  | 2 => [n0]
  | _ => [lowByte (make16 n1 n0), highByte (make16 n1 n0)]

/-- R132: the direct table, first byte by first byte. -/
theorem encode_decodeDirect {b : Byte} (hb : b ≠ prefixByte) (n0 n1 : Byte) :
    encode (decodeDirect b n0 n1) = b :: operandBytes b n0 n1 := by
  obtain ⟨k, hk, rfl⟩ : ∃ k < 256, b = BitVec.ofNat 8 k := ⟨b.toNat, b.isLt, by simp⟩
  have hne : k ≠ 0xCB := fun e => hb (by rw [e]; rfl)
  -- The rows below and above the byte 0xCB.
  obtain hlt | hgt := Nat.lt_or_gt_of_ne hne
  · interval_cases k <;> rfl
  · interval_cases k <;> rfl

/-- R124: no instruction is encoded as the byte 0xCB alone, so what has another encoding is well-formed. -/
theorem wellFormed_of_encode_ne {i : Instr} (h : encode i ≠ [prefixByte]) : i.WellFormed := by
  rintro rfl
  exact h rfl

theorem wellFormed_decodePrefixed (b : Byte) : (decodePrefixed b).WellFormed :=
  wellFormed_of_encode_ne (by simp [encode_decodePrefixed])

theorem wellFormed_decodeDirect {b : Byte} (hb : b ≠ prefixByte) (n0 n1 : Byte) :
    (decodeDirect b n0 n1).WellFormed :=
  wellFormed_of_encode_ne (by simp [encode_decodeDirect hb, hb])

/-- Settles O2: the decoder reads 0xCB and its selecting byte, or a first byte and as many operand bytes as its
length says; in each case the encoder writes these bytes. -/
theorem encodeInvertsDecode : Obligations.EncodeInvertsDecode := by
  intro bytes rest i h
  unfold decode at h
  split at h
  case h_1 => cases h
  case h_2 b tail =>
    split at h
    case isTrue hb =>
      subst hb
      split at h
      case h_1 => cases h
      case h_2 b2 _ =>
        cases h
        exact ⟨wellFormed_decodePrefixed b2, by rw [encode_decodePrefixed]; rfl⟩
    case isFalse hb =>
      split at h
      case h_4 => cases h
      all_goals
        rename_i hl
        cases h
        refine ⟨wellFormed_decodeDirect hb _ _, ?_⟩
        rw [encode_decodeDirect hb, operandBytes, hl]
        simp

/-! ## The length column -/

/-- R121, R131: the encoder writes as many bytes as the table says. -/
theorem length_encode {i : Instr} (h : i.WellFormed) : (encode i).length = i.entry.length := by
  cases i
  case PREFIX_CB => exact absurd rfl h
  all_goals rfl

/-- R121: instructions are one to three bytes long. -/
theorem lengthOf_cases (b : Byte) : lengthOf b = 1 ∨ lengthOf b = 2 ∨ lengthOf b = 3 := by
  revert b
  decide

/-- R121, R137: three bytes are enough for any instruction. -/
theorem decode_three_bytes (b0 b1 b2 : Byte) (rest : List Byte) :
    ∃ i tail, decode (b0 :: b1 :: b2 :: rest) = .ok (i, tail) := by
  by_cases hb : b0 = prefixByte
  · exact ⟨_, _, if_pos hb⟩
  · obtain hl | hl | hl := lengthOf_cases b0 <;> simp [decode, hb, hl]

/-- Settles O3: three bytes decode; what decodes is the encoding (O2), whose length is the table's. -/
theorem threeBytesAlwaysDecode : Obligations.ThreeBytesAlwaysDecode := by
  intro b0 b1 b2 rest
  obtain ⟨i, tail, h⟩ := decode_three_bytes b0 b1 b2 rest
  obtain ⟨hwf, hbytes⟩ := encodeInvertsDecode _ _ _ h
  have hlen := congrArg List.length hbytes
  rw [List.length_append, length_encode hwf] at hlen
  simp only [List.length_cons] at hlen
  exact ⟨i, tail, h, by omega⟩

/-- Settles O4: the sixteen words are the encodings of their instructions. -/
theorem specWordsDecode : Obligations.SpecWordsDecode :=
  ⟨rfl, rfl, rfl, rfl, rfl, rfl, rfl, rfl, rfl, rfl, rfl, rfl, rfl, rfl, rfl, rfl⟩

end Sys2Proof.Machine
end

