-- ==== Sys2Proof/Proofs/Invariants.lean ====
section
/-! SUPPORT. R24, R393, R450 to R458: the invariant and the display's schedule through one step. -/

namespace Sys2Proof.Machine

/-! ## The invariant -/

theorem State.Inv.devOk {s : State} (h : s.Inv) : s.DevOk := by
  obtain ⟨hcanon, hrange, -, -, hdma, hframe, hquiet, hstarted, hcoinc⟩ := h
  exact ⟨hcanon, hrange, hdma, hframe, hquiet, fun ha => (hstarted ha).1, hcoinc⟩

/-- The device invariant and what the CPU and the tick count add to it. -/
theorem State.DevOk.inv {s : State} (h : s.DevOk) (hlow : s.flagsLowNibbleZero) (hahead : s.boundaryAhead)
    (hon : s.ppu.lcdActive = true → s.ppu.lcdOnCycle < s.cycles) : s.Inv := by
  obtain ⟨hcanon, hrange, hdma, hframe, hquiet, hlcdc, hcoinc⟩ := h
  exact ⟨hcanon, hrange, hlow, hahead, hdma, hframe, hquiet, fun ha => ⟨hlcdc ha, hon ha⟩, hcoinc⟩

/-- R452: a CPU step does not start the LCD. A stopped display is on schedule at every position; a running one is not,
because LY is one number. -/
theorem CpuPost.lcdActive {d t : State} (h : CpuPost d t) (ht : t.ppu.lcdActive = true) :
    d.ppu.lcdActive = true := by
  by_contra hd
  have hly : ∀ p, t.ppu.ly = BitVec.ofNat 8 (p / 114) := fun p => (h.sched p (fun ha => absurd ha hd) ht).1
  have h01 : BitVec.ofNat 8 (0 / 114) = BitVec.ofNat 8 (114 / 114) := (hly 0).symm.trans (hly 114)
  exact absurd h01 (by decide)

/-- R452: after the device steps a running LCD was started in this tick or before it. -/
theorem devicesStep_lcdOnCycle_le {s : State} (h : s.lcdStarted) (ha : (devicesStep s).ppu.lcdActive = true) :
    (devicesStep s).ppu.lcdOnCycle ≤ s.cycles := by
  rcases devicesStep_lcd s with ⟨hon, hact⟩ | hon
  · rw [hon]
    exact (h (hact ▸ ha)).2.le
  · exact hon.le

/-- R393, R397: the device steps leave the boundary where it is. -/
theorem devicesStep_boundaryAhead {s : State} (h : s.boundaryAhead) : (devicesStep s).boundaryAhead := by
  obtain ⟨-, -, -, -, hhalted, hnext, -, hcycles, -⟩ := devicesStep_sameCpu s
  rwa [State.boundaryAhead, hhalted, hnext, hcycles]

theorem devicesStep_flagsLowNibbleZero {s : State} (h : s.flagsLowNibbleZero) :
    (devicesStep s).flagsLowNibbleZero := by
  obtain ⟨hregs, -⟩ := devicesStep_sameCpu s
  rwa [State.flagsLowNibbleZero, hregs]

/-- Settles O58: the device steps and the CPU step keep the device invariant (`CpuPost`); the boundary is 1 to 6 ticks
ahead of the tick before the count, and the LCD was started in this tick at the latest. -/
theorem stepKeepsTheInvariant : Obligations.StepKeepsTheInvariant := by
  intro s t hs h
  have hdev := hs.devOk
  obtain ⟨-, -, hlow, hahead, -, -, -, hstarted, -⟩ := hs
  obtain ⟨-, u, hu, rfl⟩ := step_cases s t h
  obtain ⟨-, -, -, -, -, -, -, hcycles, -⟩ := devicesStep_sameCpu s
  refine State.DevOk.inv (hu.dev (devicesStep_devOk s hdev)) (hu.low (devicesStep_flagsLowNibbleZero hlow)) ?_ ?_
  · intro hhalted
    obtain ⟨hlo, hhi⟩ := hu.ahead (devicesStep_boundaryAhead hahead) hhalted
    rw [hcycles] at hlo hhi
    exact ⟨hlo, by omega⟩
  · intro hact
    have hle := devicesStep_lcdOnCycle_le hstarted (hu.lcdActive hact)
    rw [← hu.on] at hle
    exact Nat.lt_succ_of_le hle

/-! ## The display's schedule -/

/-- R454: the schedule of a state is that at the position of its last tick. -/
theorem State.schedAt_lastPosition_iff (s : State) : s.SchedAt s.lastPosition ↔ s.onSchedule ∧ s.slotsFilled := by
  constructor
  · exact fun h => ⟨fun ha => ⟨(h ha).1, (h ha).2.1⟩, fun ha => (h ha).2.2⟩
  · exact fun ⟨hon, hslots⟩ ha => ⟨(hon ha).1, (hon ha).2, hslots ha⟩

/-- R450: the position of a tick is 0 or the one after the tick before it. -/
theorem framePosition_succ {s : State} (h : s.ppu.lcdOnCycle < s.cycles) :
    framePosition s = 0 ∨ framePosition s = s.lastPosition + 1 := by
  unfold framePosition State.lastPosition frameCycles
  omega

/-- R450, R454: the action of a tick at `framePosition` puts the display on schedule there. -/
theorem lcdStep_sched {s : State} (hlen : s.ppu.nextFrame.length = 144)
    (hq : s.ppu.lcdActive = true →
      framePosition s = 0 ∨ ∃ q, framePosition s = q + 1 ∧ s.SchedAt q) : (lcdStep s).SchedAt (framePosition s) := by
  unfold lcdStep
  split
  case isTrue ha =>
    have hlt : framePosition s < frameCycles := Nat.mod_lt _ (by decide)
    rcases hq ha with h0 | ⟨q, hq⟩
    · exact lcdAction_sched _ 0 s ha hlen hlt (.inl h0)
    · exact lcdAction_sched _ q s ha hlen hlt (.inr hq)
  case isFalse ha => exact fun h => absurd h ha

/-- R450: the position of a tick depends on its number and on the tick in which the LCD started. -/
theorem framePosition_congr {s t : State} (hc : t.cycles = s.cycles) (ho : t.ppu.lcdOnCycle = s.ppu.lcdOnCycle) :
    framePosition t = framePosition s := by
  rw [framePosition, framePosition, hc, ho]

theorem lcdStep_lcdOnCycle (s : State) : (lcdStep s).ppu.lcdOnCycle = s.ppu.lcdOnCycle := by
  unfold lcdStep
  split
  · exact (lcdAction_started _ s).2
  · rfl

/-- R450, R454: the picture unit's step takes the display from the schedule of the last tick to that of this one: a
running LCD moves on by a position, a started one begins at position 0. -/
theorem ppuStep_sched {s : State} (hlen : s.ppu.nextFrame.length = 144) (hstarted : s.lcdStarted)
    (hsched : s.SchedAt s.lastPosition) : (ppuStep s).SchedAt (framePosition (ppuStep s)) := by
  obtain ⟨oam, idx, act, e⟩ := dmaStep_ppu s
  obtain ⟨-, -, -, -, -, -, -, hc, -⟩ := dmaStep_sameCpu s
  obtain ⟨-, -, -, -, -, -, -, hc', -⟩ := lcdStep_sameCpu (lcdStart (dmaStep s))
  rw [ppuStep, framePosition_congr hc' (lcdStep_lcdOnCycle _)]
  rcases lcdStart_cases (dmaStep s) with ⟨hst, -⟩ | ⟨-, -, hst⟩
  · rw [hst]
    have hpos : framePosition (dmaStep s) = framePosition s := framePosition_congr hc (by rw [e])
    refine lcdStep_sched (by rw [e]; exact hlen) fun ha => ?_
    have hact : s.ppu.lcdActive = true := by rwa [e] at ha
    rw [hpos]
    exact (framePosition_succ (hstarted hact).2).imp_right fun hp => ⟨_, hp, (dmaStep_sched _ _ s ⟨hsched, rfl⟩).1⟩
  · refine lcdStep_sched (by rw [hst, e]; exact hlen) fun _ => .inl ?_
    rw [hst]
    exact congrArg (· % frameCycles) (Nat.sub_self _)

/-- R420, R450: the schedule after the device steps, at the position of the tick. -/
theorem devicesStep_sched {s : State} (h : s.ScheduleInv) :
    (devicesStep s).SchedAt (framePosition (devicesStep s)) := by
  obtain ⟨⟨-, -, -, -, -, ⟨hlen, -⟩, -, hstarted, -⟩, hsched⟩ := h
  have hs : s.SchedAt s.lastPosition := s.schedAt_lastPosition_iff.mpr hsched
  have hp := timerStep_ppu s
  obtain ⟨-, -, -, -, -, -, -, hc, -⟩ := timerStep_sameCpu s
  refine ppuStep_sched (s := timerStep s) (by rw [hp]; exact hlen) ?_ ?_
  · rwa [State.lcdStarted, hp, hc]
  · rwa [State.lastPosition, hp, hc, State.SchedAt, hp]

/-- Settles O59: the device steps reach the schedule of their own tick, the CPU step keeps it, and the count makes that
tick the last one. -/
theorem stepKeepsTheSchedule : Obligations.StepKeepsTheSchedule := by
  intro s t hs h
  have hinv : t.Inv := stepKeepsTheInvariant s t hs.1 h
  obtain ⟨-, u, hu, rfl⟩ := step_cases s t h
  obtain ⟨-, -, -, -, -, -, -, hcycles, -⟩ := devicesStep_sameCpu s
  have hsched : u.SchedAt (framePosition (devicesStep s)) := hu.sched _ (devicesStep_sched hs)
  rw [framePosition, hcycles, ← hu.on] at hsched
  exact ⟨hinv, (State.schedAt_lastPosition_iff { u with cycles := s.cycles + 1 }).mp hsched⟩

/-! ## Reset -/

/-- R55: a row of the reset image is 160 pixels of colour 0, and there are 144. -/
theorem reset_currentImage : State.reset.ppu.currentImage = List.replicate 144 (List.replicate 160 0#2) := rfl

theorem reset_inv : State.reset.Inv := by
  refine ⟨⟨rfl, rfl, rfl, rfl⟩, ⟨rfl, rfl, rfl⟩, rfl, fun _ => ⟨Nat.le_refl _, Nat.zero_le _⟩, nofun,
    ⟨List.length_replicate, List.length_replicate, fun row hrow => ?_⟩, fun _ => ⟨rfl, rfl⟩, nofun, nofun, nofun⟩
  rw [List.eq_of_mem_replicate hrow]
  exact List.length_replicate

/-- Settles O57: the LCD is off at reset, so that nothing is asked of the schedule. -/
theorem resetIsSound : Obligations.ResetIsSound :=
  ⟨reset_inv, reset_inv, nofun, nofun⟩

/-- Settles O56: the fields of `State.reset`, and the image pixel by pixel. -/
theorem resetValues : Obligations.ResetValues := by
  refine ⟨rfl, rfl, rfl, rfl, rfl, rfl, rfl, rfl, rfl, rfl, fun _ => ⟨rfl, rfl, rfl, rfl⟩, rfl,
    fun r => by cases r <;> rfl, rfl, rfl, rfl, rfl, rfl, rfl, fun _ _ => rfl, rfl, List.length_replicate,
    fun r hr x hx => ?_⟩
  rw [reset_currentImage, List.getD_replicate _ hr, List.getD_replicate _ hx]

end Sys2Proof.Machine
end

