-- ==== Sys2Proof/Proofs/Loads.lean ====
section
/-! SUPPORT. R210 to R234: an instruction's next state is its form's shared operation; loads, stores, push and pop. -/

namespace Sys2Proof.Machine

/-- An instruction of a known form runs the form's shared operation. -/
theorem exec_of_form {i : Instr} {f : Form} (h : i.form = f) (s : State) : exec i s = execForm f s := by
  rw [exec_form, h]

/-- R130: `0xFF00 + offset` is the word with the offset as its low byte. -/
theorem ioAddr_eq_append (n : Byte) : ioAddr n = 0xFF#8 ++ n := by
  apply BitVec.eq_of_toNat_eq
  have hn : n.toNat < 256 := n.isLt
  rw [ioAddr, BitVec.toNat_add, BitVec.toNat_setWidth, BitVec.toNat_append, Nat.shiftLeft_eq, Nat.mul_comm,
    ← Nat.two_pow_add_eq_or_of_lt hn]
  simp only [BitVec.toNat_ofNat]
  omega

/-- R234: the second byte of a pushed word stands above the first. -/
theorem sub_two_add_one (a : Word) : a - 2#16 + 1#16 = a - 1#16 := by bv_omega

/-- R234: a push is two bus writes, the low byte at the lower address. -/
theorem push16_eq (v : Word) (s : State) : push16 v s =
    ({ s with sp := s.sp - 2#16 }.busWrite (s.sp - 2#16) (lowByte v)).busWrite (s.sp - 1#16) (highByte v) := by
  rw [push16, State.busWrite16, sub_two_add_one]

/-- R234: the halves of the popped word. -/
@[simp] theorem highByte_poppedWord (s : State) : highByte (poppedWord s) = s.busRead (s.sp + 1#16) :=
  highByte_make16 _ _

@[simp] theorem lowByte_poppedWord (s : State) : lowByte (poppedWord s) = s.busRead s.sp :=
  lowByte_make16 _ _

/-- Settles O11: each is its form's operation. -/
theorem registerLoads : Obligations.RegisterLoads :=
  fun s d r n _ => ⟨exec_of_form (Instr.form_ldRegReg d r) s, exec_of_form (Instr.form_ldRegImm d n) s, rfl, rfl, rfl,
    rfl, rfl, rfl⟩

/-- Settles O12: each is its form's operation; `ioAddr_eq_append` gives the two addresses of page 0xFF. -/
theorem loadFromMemory : Obligations.LoadFromMemory := by
  intro s d n nn
  simp only [← ioAddr_eq_append]
  exact ⟨exec_of_form (Instr.form_ldRegHl d) s, rfl, rfl, rfl, rfl, rfl, rfl, rfl⟩

/-- R221, R222: HL moves after a write, which leaves the registers. -/
theorem setHl_busWrite (s : State) (a : Word) (d : Byte) (v : Word) : (s.busWrite a d).setHl v =
    { s.busWrite a d with regs := { s.regs with h := highByte v, l := lowByte v } } := by
  rw [State.setHl, busWrite_regs]

/-- Settles O13: each is its form's operation. -/
theorem storeToMemory : Obligations.StoreToMemory := by
  intro s r n nn
  simp only [← ioAddr_eq_append]
  have hmove (v : Word) := congrArg (fun t => Host.Outcome.next (φ := Fault) (ρ := Refusal) (s.retire 1 2 t))
    (setHl_busWrite s s.hl s.regs.a v)
  exact ⟨exec_of_form (Instr.form_ldHlReg r) s, rfl, rfl, rfl, hmove _, hmove _, rfl, rfl, rfl⟩

/-- Settles O14: the push as two writes, the popped word by its halves. -/
theorem pushAndPop : Obligations.PushAndPop := by
  intro s p
  refine ⟨?_, ?_, ?_, ?_, ?_⟩
  · rw [exec_of_form (Instr.form_push p) s, ← push16_eq]
    rfl
  all_goals
    rw [← highByte_poppedWord, ← lowByte_poppedWord]
    rfl

end Sys2Proof.Machine
end

