-- ==== Sys2Proof/Proofs/Arithmetic.lean ====
section
/-! SUPPORT. R177 to R183, R250 to R273, R290 to R299, R360 to R363: the adder's and the subtractor's results in exact
arithmetic, and the instructions that store them. -/

namespace Sys2Proof.Machine

/-! ## Subtraction -/

theorem ofInt_sub (w : Nat) (x y : Int) : BitVec.ofInt w (x - y) = BitVec.ofInt w x - BitVec.ofInt w y :=
  eq_sub_of_add_eq (by rw [← BitVec.ofInt_add, Int.sub_add_cancel])

/-- R178: the difference as a byte difference, the two borrows and the zero test as comparisons. -/
theorem sub8_eq (l r : Byte) (b : Bool) : sub8 l r b =
    { v := l - r - BitVec.ofNat 8 b.toNat
      zf := decide (l = r + BitVec.ofNat 8 b.toNat), nf := true
      hf := decide (l.toNat % 16 < r.toNat % 16 + b.toNat)
      cf := decide (l.toNat < r.toNat + b.toNat) } := by
  have hv : BitVec.ofInt 8 ((l.toNat : Int) - r.toNat - b.toNat) = l - r - BitVec.ofNat 8 b.toNat := by
    simp only [ofInt_sub, BitVec.ofInt_natCast, BitVec.ofNat_toNat, BitVec.setWidth_eq]
  have hz : (l - r - BitVec.ofNat 8 b.toNat == 0#8) = decide (l = r + BitVec.ofNat 8 b.toNat) := by
    rw [beq_eq_decide, decide_eq_decide, sub_sub]
    exact sub_eq_zero
  have hh : decide (((l.toNat % 16 : Nat) : Int) - (r.toNat % 16 : Nat) - b.toNat < 0) =
      decide (l.toNat % 16 < r.toNat % 16 + b.toNat) := decide_eq_decide.mpr (by omega)
  have hc : decide ((l.toNat : Int) - r.toNat - b.toNat < 0) = decide (l.toNat < r.toNat + b.toNat) :=
    decide_eq_decide.mpr (by omega)
  rw [sub8, hv, hz, hh, hc]

/-- R182: the complement of a byte is 255 minus it, so that a borrow is the complement of a carry. -/
theorem sub8_eq_add8_not (l r : Byte) (b : Bool) : (sub8 l r b).v = (add8 l (~~~ r) (!b)).v ∧
    (sub8 l r b).cf = !(add8 l (~~~ r) (!b)).cf ∧ (sub8 l r b).hf = !(add8 l (~~~ r) (!b)).hf := by
  have hnot : (~~~ r).toNat = 255 - r.toNat := BitVec.toNat_not
  have hr : r.toNat < 256 := r.isLt
  simp only [sub8_eq, add8_eq, hnot, ← decide_not, decide_eq_decide]
  cases b
  case false =>
    refine ⟨?_, ?_, ?_⟩
    · change l - r - 0#8 = l + ~~~ r + 1#8
      bv_omega
    · simp only [Bool.toNat_false, Bool.not_false, Bool.toNat_true]
      omega
    · simp only [Bool.toNat_false, Bool.not_false, Bool.toNat_true]
      omega
  case true =>
    refine ⟨?_, ?_, ?_⟩
    · change l - r - 1#8 = l + ~~~ r + 0#8
      bv_omega
    · simp only [Bool.toNat_false, Bool.not_true, Bool.toNat_true]
      omega
    · simp only [Bool.toNat_false, Bool.not_true, Bool.toNat_true]
      omega

/-- Settles O19: sums and differences as byte sums and differences. -/
theorem subtractionLaws : Obligations.SubtractionLaws := by
  refine ⟨fun l r => ⟨?_, ?_⟩, sub8_eq_add8_not⟩
  · rw [sub8_eq, add8_eq]
    exact (BitVec.sub_zero _).trans ((congrArg (· - r) (BitVec.add_zero _)).trans (BitVec.add_sub_cancel l r))
  · simp only [add8, beq_iff_eq]

/-! ## The two-operand operations on A -/

/-- R250 to R264, R290 to R298: an operation on A other than `CP` stores its primitive's value and flags. -/
theorem aluA_eq {op : AluOp} (h : op ≠ .CP) (v : Byte) (s : State) : aluA op v s =
    { s with regs := { s.regs with
        a := (aluResult op s.regs.a v s.flagC).v
        f := (aluRouting op).apply (aluResult op s.regs.a v s.flagC) s.regs.f } } := by
  cases op
  case CP => exact absurd rfl h
  all_goals rfl

/-- The three operand forms of an operation on A are one operation on the operand's value. -/
theorem exec_aluOperand {s : State} {op : AluOp} {i : Instr} {v : Byte} {length cost : Nat}
    (h : s.aluOperand op i v length cost) : exec i s = .next (s.retire length cost (aluA op v s)) := by
  rcases h with ⟨r, rfl, rfl, rfl, rfl⟩ | ⟨n, rfl, rfl, rfl, rfl⟩ | ⟨rfl, rfl, rfl, rfl⟩
  · exact exec_of_form (Instr.form_aluReg op r) s
  · exact exec_of_form (Instr.form_aluImm op _) s
  · exact exec_of_form (Instr.form_aluHl op) s

/-- R177: the adder with its carry as a number. -/
theorem add8_eq_ofNat (l r : Byte) (b : Bool) : add8 l r b =
    { v := BitVec.ofNat 8 (l.toNat + r.toNat + b.toNat)
      zf := decide ((l.toNat + r.toNat + b.toNat) % 256 = 0), nf := false
      hf := decide (16 ≤ l.toNat % 16 + r.toNat % 16 + b.toNat)
      cf := decide (256 ≤ l.toNat + r.toNat + b.toNat) } := by
  rw [add8, ofNat_beq_zero]
  rfl

/-- Settles O20: `ADD` is the adder without a carry, `ADC` with the carry flag. -/
theorem addResult : Obligations.AddResult := by
  intro s op i v length cost c hop h
  rw [exec_aluOperand h]
  obtain ⟨rfl, rfl⟩ | ⟨rfl, rfl⟩ := hop
  · rw [aluA_eq (by decide), aluResult, add8_eq_ofNat]
    rfl
  · rw [aluA_eq (by decide), aluResult, add8_eq_ofNat]
    rfl

/-- Settles O21: `SUB` and `CP` are the subtractor without a borrow, `SBC` with the carry flag; `CP` drops the value. -/
theorem subResult : Obligations.SubResult := by
  intro s op i v length cost c hop h
  rw [exec_aluOperand h]
  obtain ⟨rfl, rfl⟩ | ⟨rfl, rfl⟩ | ⟨rfl, rfl⟩ := hop
  · rw [aluA_eq (by decide), aluResult, sub8_eq]
    rfl
  · rw [aluA_eq (by decide), aluResult, sub8_eq]
    rfl
  · rw [aluA]
    dsimp only [aluResult]
    rw [sub8_eq]
    rfl

/-- Settles O22: the three logic primitives. -/
theorem logicResult : Obligations.LogicResult := by
  intro s op i v x length cost hop h
  rw [exec_aluOperand h]
  obtain ⟨rfl, rfl⟩ | ⟨rfl, rfl⟩ | ⟨rfl, rfl⟩ := hop
  · rw [aluA_eq (by decide), aluResult, and8_eq]
    rfl
  · rw [aluA_eq (by decide), aluResult, or8_eq]
    rfl
  · rw [aluA_eq (by decide), aluResult, xor8, beq_eq_decide]
    rfl

/-! ## Increment and decrement -/

/-- R265: one more. -/
theorem add8_one (x : Byte) : add8 x 1#8 false =
    ⟨x + 1#8, decide (x = 0xFF#8), false, decide (x.toNat % 16 = 15), decide (255 ≤ x.toNat)⟩ := by
  have hx : x.toNat < 256 := x.isLt
  have hz : decide ((x.toNat + (1#8).toNat + false.toNat) % 256 = 0) = decide (x = 0xFF#8) :=
    decide_eq_decide.mpr (by rw [BitVec.toNat_eq]; simp only [BitVec.toNat_ofNat, Bool.toNat_false]; omega)
  have hh : decide (16 ≤ x.toNat % 16 + (1#8).toNat % 16 + false.toNat) = decide (x.toNat % 16 = 15) :=
    decide_eq_decide.mpr (by simp only [BitVec.toNat_ofNat, Bool.toNat_false]; omega)
  have hc : decide (256 ≤ x.toNat + (1#8).toNat + false.toNat) = decide (255 ≤ x.toNat) :=
    decide_eq_decide.mpr (by simp only [BitVec.toNat_ofNat, Bool.toNat_false]; omega)
  rw [add8_eq, hz, hh, hc]
  exact congrArg (AluResult.mk · _ _ _ _) (BitVec.add_zero _)

/-- R267: one less. -/
theorem sub8_one (x : Byte) : sub8 x 1#8 false =
    ⟨x - 1#8, decide (x = 0x01#8), true, decide (x.toNat % 16 = 0), decide (x.toNat < 1)⟩ := by
  have hh : decide (x.toNat % 16 < (1#8).toNat % 16 + false.toNat) = decide (x.toNat % 16 = 0) :=
    decide_eq_decide.mpr (by simp only [BitVec.toNat_ofNat, Bool.toNat_false]; omega)
  rw [sub8_eq, hh]
  exact congrArg (AluResult.mk · _ _ _ _) (BitVec.sub_zero _)

/-- R265, R267: a register operand's new value and the flags. -/
theorem setR8_route (s : State) (r : R8) {w : Nat} (v : Byte) (ρ : Routing) (x : AluResult w) :
    (s.setR8 r v).route ρ x = { s with regs := { s.regs.set (regOf r) v with f := ρ.apply x s.regs.f } } := by
  rw [State.route, State.setR8, Regs.set_regOf_f]

/-- R266, R268: the flags after a bus write, which leaves the registers. -/
theorem busWrite_route (s : State) (a : Word) (d : Byte) {w : Nat} (ρ : Routing) (x : AluResult w) :
    (s.busWrite a d).route ρ x = { s.busWrite a d with regs := { s.regs with f := ρ.apply x s.regs.f } } := by
  rw [State.route, busWrite_regs]

/-- Settles O23: `add8_one` and `sub8_one`, stored to the register or at HL. -/
theorem incDecByte : Obligations.IncDecByte := by
  intro s r
  refine ⟨?_, ?_, ?_, ?_⟩
  · rw [exec_of_form (Instr.form_incReg r), execForm, opIncReg, add8_one, setR8_route]
    rfl
  · rw [exec_of_form (Instr.form_decReg r), execForm, opDecReg, sub8_one, setR8_route]
    rfl
  · rw [exec_of_form (f := .incHl) rfl, execForm, opIncHl, add8_one, busWrite_route]
    rfl
  · rw [exec_of_form (f := .decHl) rfl, execForm, opDecHl, sub8_one, busWrite_route]
    rfl

/-! ## Words -/

/-- R180: the sum as a word sum, the carries from bits 11 and 15. -/
theorem add16H_eq (l r : Word) : add16H l r =
    { v := l + r, zf := false, nf := false
      hf := decide (0x1000 ≤ l.toNat % 0x1000 + r.toNat % 0x1000), cf := decide (0x10000 ≤ l.toNat + r.toNat) } := by
  have hv : BitVec.ofNat 16 (l.toNat + r.toNat) = l + r := by simp [BitVec.ofNat_add]
  rw [add16H, hv]
  rfl

/-- R9: the low byte of a sign-extended byte is the byte. -/
theorem toNat_sext16_mod (e : Byte) : (sext16 e).toNat % 256 = e.toNat := by
  have he : e.toNat < 256 := e.isLt
  rw [sext16_eq_ite]
  split
  · rw [BitVec.toNat_add, BitVec.toNat_setWidth, BitVec.toNat_ofNat]
    omega
  · rw [BitVec.toNat_setWidth]
    omega

/-- R179: the sum with a sign-extended byte; the carries are those of the low bytes. -/
theorem add16L_sext16 (l : Word) (e : Byte) : add16L l (sext16 e) =
    { v := l + sext16 e, zf := false, nf := false
      hf := decide (16 ≤ l.toNat % 16 + e.toNat % 16), cf := decide (256 ≤ l.toNat % 256 + e.toNat) } := by
  have hv : BitVec.ofNat 16 (l.toNat + (sext16 e).toNat) = l + sext16 e := by simp [BitVec.ofNat_add]
  have he := toNat_sext16_mod e
  have he' : (sext16 e).toNat % 16 = e.toNat % 16 := by omega
  rw [add16L, hv, he, he']
  rfl

/-- R23: a pair read after its write. -/
@[simp] theorem State.r16_setR16 (s : State) (p : R16) (v : Word) : (s.setR16 p v).r16 p = v := by
  cases p
  case SP => rfl
  all_goals exact make16_bytes v

theorem State.r16_retire (s t : State) (length cost : Nat) (p : R16) : (s.retire length cost t).r16 p = t.r16 p := by
  cases p <;> rfl

/-- Settles O24: the pair is written and read back; the two adders give the sums and the carries. -/
theorem wordArithmetic : Obligations.WordArithmetic := by
  intro s p e
  refine ⟨⟨_, _, exec_of_form (Instr.form_incPair p) s, exec_of_form (Instr.form_decPair p) s, rfl, rfl, ?_, ?_, ?_, ?_⟩,
    ?_, ?_, ?_⟩
  · exact (s.r16_retire _ _ _ p).trans (s.r16_setR16 p _)
  · exact (s.r16_retire _ _ _ p).trans (s.r16_setR16 p _)
  · exact setR16_f s p _
  · exact setR16_f s p _
  · rw [exec_of_form (Instr.form_addHl p), execForm, opAddHl, add16H_eq]
    rfl
  · rw [exec_of_form (f := .addSp e) rfl, execForm, opAddSp, add16L_sext16]
    rfl
  · rw [exec_of_form (f := .ldHlSp e) rfl, execForm, opLdHlSp, add16L_sext16]
    rfl

/-! ## The accumulator and the flags -/

/-- R168: the complement. -/
theorem complement8_eq_not (b : Byte) : complement8 b = ~~~ b := BitVec.xor_allOnes

/-- R181: the correction as a byte, added or subtracted. -/
theorem bcdAdjust_eq {v : Byte} {n h c lowFix highFix : Bool} {fix x : Byte}
    (hl : lowFix = (h || (!n && decide (9 < v.toNat % 16)))) (hh : highFix = (c || (!n && decide (0x99 < v.toNat))))
    (hf : fix = (if lowFix then 0x06#8 else 0#8) + (if highFix then 0x60#8 else 0#8))
    (hx : x = if n then v - fix else v + fix) :
    bcdAdjust v n h c = ⟨x, decide (x = 0#8), n, false, highFix⟩ := by
  have hfix : BitVec.ofNat 8 (0x60 * highFix.toNat + 0x06 * lowFix.toNat) = fix := by
    rw [hf]
    cases lowFix <;> cases highFix <;> rfl
  have hv : (if n then BitVec.ofInt 8 ((v.toNat : Int) - (0x60 * highFix.toNat + 0x06 * lowFix.toNat : Nat))
      else BitVec.ofNat 8 (v.toNat + (0x60 * highFix.toNat + 0x06 * lowFix.toNat))) = x := by
    rw [hx, ofInt_sub, BitVec.ofInt_natCast, BitVec.ofInt_natCast, BitVec.ofNat_add v.toNat, hfix, BitVec.ofNat_toNat,
      BitVec.setWidth_eq]
  simp only [bcdAdjust, ← hl, ← hh, hv, beq_eq_decide]

/-- Settles O25: each is its form's operation; `DAA`'s bound names are the correction's parts. -/
theorem accumulatorAndFlagOperations : Obligations.AccumulatorAndFlagOperations := by
  intro s
  refine ⟨?_, rfl, rfl, _, _, _, _, rfl, rfl, rfl, rfl, ?_⟩
  · rw [← complement8_eq_not]
    rfl
  · rw [exec_of_form (f := .daa) rfl, execForm, opDaa, bcdAdjust_eq rfl rfl rfl rfl]
    rfl

end Sys2Proof.Machine
end

