-- ==== Sys2Proof/Proofs/Rotates.lean ====
section
/-! SUPPORT. R165, R185 to R191, R300 to R335: rotation bit by bit for every size, and the rotates, shifts, swaps and bit
operations that store a byte with given bits. -/

namespace Sys2Proof.Machine

/-! ## Rotation -/

/-- R165: bit `i` of a rotated value is bit `i - distance` modulo the size. -/
theorem getLsbD_rotate {n i : Nat} (v : BitVec n) (d : Int) (h : i < n) :
    (rotate v d).getLsbD i = v.getLsbD (((i : Int) - d) % n).toNat := by
  obtain ⟨k, hk⟩ := Int.eq_ofNat_of_zero_le (Int.emod_nonneg d (by omega : (n : Int) ≠ 0))
  have hkn : k < n := by
    have := Int.emod_lt_of_pos d (by omega : (0 : Int) < n)
    omega
  have hi : ((i : Int) - d) % n = ((i : Int) - k) % n := by rw [← Int.sub_emod_emod, hk]
  simp only [rotate, hk, hi, Int.toNat_natCast, BitVec.getLsbD_or, BitVec.getLsbD_shiftLeft,
    BitVec.getLsbD_ushiftRight, h, decide_true, Bool.true_and]
  by_cases hik : i < k
  · have e : (((i : Int) - k) % n).toNat = n - k + i := by
      rw [← Int.add_emod_right, Int.emod_eq_of_lt (by omega) (by omega)]
      omega
    simp [e, hik]
  · have e : (((i : Int) - k) % n).toNat = i - k := by
      rw [Int.emod_eq_of_lt (by omega) (by omega)]
      omega
    have hn : n ≤ n - k + i := by omega
    simp [e, hik, BitVec.getLsbD_of_ge v _ hn]

/-- Settles O17: the two distances cancel in the index of each bit. -/
theorem rotationIsInvertible : Obligations.RotationIsInvertible := by
  intro n v d hn
  refine BitVec.eq_of_getLsbD_eq fun i hi => ?_
  have hpos : 0 ≤ ((i : Int) - -d) % n := Int.emod_nonneg _ (by omega)
  have hlt : ((i : Int) - -d) % n < n := Int.emod_lt_of_pos _ (by omega)
  have hj : (((i : Int) - -d) % n).toNat < n := by omega
  have hback : ((((((i : Int) - -d) % n).toNat : Nat) : Int) - d) % n = i := by
    rw [Int.toNat_of_nonneg hpos, Int.emod_sub_emod, Int.sub_neg, Int.add_sub_cancel,
      Int.emod_eq_of_lt (by omega) (by omega)]
  rw [getLsbD_rotate _ _ hi, getLsbD_rotate _ _ hj, hback, Int.toNat_natCast]

/-! ## Rotates, shifts and swaps -/

/-- R185 to R190: the carry of each, and Z from the value. -/
theorem rotResult_eq (k : RotOp) (v : Byte) (c : Bool) :
    rotResult k v c = shifted (rotResult k v c).v (rotCarry k v) := by
  cases k
  case RL => simp only [rotResult, rotateC8_left]; rfl
  case RR => simp only [rotResult, rotateC8_right]; rfl
  all_goals rfl

/-- R185 to R190: each bit. -/
theorem getLsbD_rotResult (k : RotOp) (v : Byte) (c : Bool) {j : Nat} (hj : j < 8) :
    (rotResult k v c).v.getLsbD j = rotBit k v c j := by
  cases k
  case RLC =>
    refine (getLsbD_rotate v 1 hj).trans ?_
    interval_cases j <;> rfl
  case RRC =>
    refine (getLsbD_rotate v (-1) hj).trans ?_
    interval_cases j <;> rfl
  case SWAP =>
    refine (getLsbD_rotate v 4 hj).trans ?_
    interval_cases j <;> rfl
  case RL =>
    rw [rotResult, rotateC8_left]
    interval_cases j <;> simp [shifted, rotBit]
  case RR =>
    rw [rotResult, rotateC8_right]
    interval_cases j <;> simp [shifted, rotBit]
  case SLA => interval_cases j <;> simp [rotResult, shiftLeft8, shifted, rotBit]
  case SRA => interval_cases j <;> simp [rotResult, shiftRightA8, shifted, rotBit]
  case SRL => interval_cases j <;> simp [rotResult, shiftRightL8, shifted, rotBit]

/-- R300 to R303: the accumulator forms clear Z. -/
theorem routeRotA_apply (k : RotOp) (v : Byte) (c : Bool) (f : Byte) :
    routeRotA.apply (rotResult k v c) f = packFlags false false false (rotCarry k v) := by
  rw [rotResult_eq]
  rfl

/-- R304 to R319: Z from the value, C the carry, which is 0 for `SWAP`. -/
theorem rotRouting_apply (k : RotOp) (v : Byte) (c : Bool) (f : Byte) :
    (rotRouting k).apply (rotResult k v c) f =
      packFlags (decide ((rotResult k v c).v = 0#8)) false false (rotCarry k v) := by
  rw [rotResult_eq, shifted_eq]
  cases k <;> rfl

/-- R300 to R303: an accumulator rotate, whatever its kind. -/
theorem execForm_rotA (k : RotOp) (s : State) :
    execForm (.rotA k) s = .next { s with
      regs := { s.regs with
        a := (rotResult k s.regs.a s.flagC).v, f := packFlags false false false (rotCarry k s.regs.a) }
      pc := s.pc + 1#16, next := s.cycles + 1 } := by
  rw [← routeRotA_apply k s.regs.a s.flagC s.regs.f]
  rfl

/-- Settles O27: the bits of `getLsbD_rotResult` and the flags of the two routings. -/
theorem rotateShiftSwap : Obligations.RotateShiftSwap := by
  refine ⟨fun s i k hik => ?_, fun s k r => ⟨?_, ?_⟩⟩
  · refine ⟨(rotResult k s.regs.a s.flagC).v, fun j hj => getLsbD_rotResult k _ _ hj, ?_⟩
    have hform : i.form = .rotA k := by
      simp only [List.mem_cons, Prod.mk.injEq, List.not_mem_nil, or_false] at hik
      rcases hik with ⟨rfl, rfl⟩ | ⟨rfl, rfl⟩ | ⟨rfl, rfl⟩ | ⟨rfl, rfl⟩ <;> rfl
    exact (exec_of_form hform s).trans (execForm_rotA k s)
  · refine ⟨(rotResult k (s.r8 r) s.flagC).v, fun j hj => getLsbD_rotResult k _ _ hj, ?_⟩
    rw [exec_of_form (Instr.form_rotReg k r), execForm, opRotReg, setR8_route, rotRouting_apply]
    rfl
  · refine ⟨(rotResult k (s.busRead s.hl) s.flagC).v, fun j hj => getLsbD_rotResult k _ _ hj, ?_⟩
    rw [exec_of_form (Instr.form_rotHl k), execForm, opRotHl, busWrite_route, rotRouting_apply]
    rfl

/-! ## Bits -/

/-- Settles O28: each is its form's operation. -/
theorem bitOperations : Obligations.BitOperations :=
  fun s b r => ⟨exec_of_form (Instr.form_bitReg b r) s, exec_of_form (Instr.form_bitHl b) s,
    exec_of_form (Instr.form_resReg b r) s, exec_of_form (Instr.form_setReg b r) s,
    exec_of_form (Instr.form_resHl b) s, exec_of_form (Instr.form_setHl b) s⟩

end Sys2Proof.Machine
end

