-- ==== Sys2Proof/Proofs/Decimal.lean ====
section
/-! SUPPORT. R181, R361: the correction after a sum or a difference of two-digit decimal numbers. -/

namespace Sys2Proof.Machine

/-- A number below 100 by its two digits. -/
theorem exists_digits {n : Nat} (h : n < 100) : ∃ t u, t < 10 ∧ u < 10 ∧ n = 10 * t + u :=
  ⟨n / 10, n % 10, by omega, by omega, by omega⟩

theorem bcdByte_digits_toNat {t u : Nat} (ht : t < 10) (hu : u < 10) : (bcdByte (10 * t + u)).toNat = 16 * t + u := by
  rw [bcdByte, BitVec.toNat_ofNat]
  omega

/-- The digits of a number below 200 modulo 100. -/
theorem bcdByte_mod_toNat {n : Nat} (h : n < 200) : (bcdByte (n % 100)).toNat =
    if 100 ≤ n then (n - 100) / 10 * 16 + n % 10 else n / 10 * 16 + n % 10 := by
  rw [bcdByte, BitVec.toNat_ofNat]
  split <;> omega

/-- R181: after the sum of the digits of two numbers below 100, the digits of their sum and the decimal carry. The
units are corrected where they reach 10, the tens where the sum reaches 100. -/
theorem bcdAdjust_add8 {x y : Nat} (hx : x < 100) (hy : y < 100) {r : AluResult 8}
    (hr : r = add8 (bcdByte x) (bcdByte y) false) :
    (bcdAdjust r.v false r.hf r.cf).v = bcdByte ((x + y) % 100) ∧
      (bcdAdjust r.v false r.hf r.cf).cf = decide (100 ≤ x + y) := by
  obtain ⟨t, u, ht, hu, rfl⟩ := exists_digits hx
  obtain ⟨t', u', ht', hu', rfl⟩ := exists_digits hy
  rw [add8_eq_ofNat, bcdByte_digits_toNat ht hu, bcdByte_digits_toNat ht' hu', Bool.toNat_false] at hr
  have hv : r.v.toNat = (16 * t + u + (16 * t' + u')) % 256 := by
    rw [hr]
    exact BitVec.toNat_ofNat _ _
  have hlow : (r.hf || (!false && decide (9 < r.v.toNat % 16))) = decide (10 ≤ u + u') := by
    rw [hv]
    simp only [hr, Bool.not_false, Bool.true_and, ← Bool.decide_or, decide_eq_decide]
    omega
  have hhigh : (r.cf || (!false && decide (0x99 < r.v.toNat))) = decide (100 ≤ 10 * t + u + (10 * t' + u')) := by
    rw [hv]
    simp only [hr, Bool.not_false, Bool.true_and, ← Bool.decide_or, decide_eq_decide]
    omega
  rw [bcdAdjust_eq hlow.symm hhigh.symm rfl rfl]
  refine ⟨BitVec.eq_of_toNat_eq ?_, rfl⟩
  rw [bcdByte_mod_toNat (by omega)]
  simp only [Bool.false_eq_true, if_false, decide_eq_true_eq, BitVec.toNat_add, hv]
  split_ifs <;> simp only [BitVec.toNat_ofNat] <;> omega

/-- R181: after the difference, the digits of the difference modulo 100 and the decimal borrow. The units are corrected
where they borrow, the tens where the difference is negative. -/
theorem bcdAdjust_sub8 {x y : Nat} (hx : x < 100) (hy : y < 100) {r : AluResult 8}
    (hr : r = sub8 (bcdByte x) (bcdByte y) false) :
    (bcdAdjust r.v true r.hf r.cf).v = bcdByte ((x + 100 - y) % 100) ∧
      (bcdAdjust r.v true r.hf r.cf).cf = decide (x < y) := by
  obtain ⟨t, u, ht, hu, rfl⟩ := exists_digits hx
  obtain ⟨t', u', ht', hu', rfl⟩ := exists_digits hy
  have hv : r.v.toNat = (16 * t + u + 256 - (16 * t' + u')) % 256 := by
    have e : r.v = bcdByte (10 * t + u) - bcdByte (10 * t' + u') := by
      rw [hr, sub8_eq]
      exact BitVec.sub_zero _
    rw [e, BitVec.toNat_sub, bcdByte_digits_toNat ht hu, bcdByte_digits_toNat ht' hu']
    omega
  rw [sub8_eq, bcdByte_digits_toNat ht hu, bcdByte_digits_toNat ht' hu', Bool.toNat_false] at hr
  have hlow : (r.hf || (!true && decide (9 < r.v.toNat % 16))) = decide (u < u') := by
    simp only [hr, Bool.not_true, Bool.false_and, Bool.or_false, decide_eq_decide]
    omega
  have hhigh : (r.cf || (!true && decide (0x99 < r.v.toNat))) = decide (10 * t + u < 10 * t' + u') := by
    simp only [hr, Bool.not_true, Bool.false_and, Bool.or_false, decide_eq_decide]
    omega
  rw [bcdAdjust_eq hlow.symm hhigh.symm rfl rfl]
  refine ⟨BitVec.eq_of_toNat_eq ?_, rfl⟩
  rw [bcdByte_mod_toNat (by omega)]
  simp only [if_true, decide_eq_true_eq, BitVec.toNat_sub, BitVec.toNat_add, hv]
  split_ifs <;> simp only [BitVec.toNat_ofNat] <;> omega

/-- R361: what `DAA` leaves in A and in C. -/
theorem opDaa_a_flagC (s : State) : let x := bcdAdjust s.regs.a s.flagN s.flagH s.flagC
    (opDaa s).regs.a = x.v ∧ (opDaa s).flagC = x.cf :=
  ⟨rfl, packFlags_c _ _ _ _⟩

/-- R250, R256: what `ADD` and `SUB` of a register leave for `DAA`. -/
theorem opAluReg_daa_inputs {op : AluOp} (h : op ≠ .CP) (r : R8) (s : State) :
    let x := aluResult op s.regs.a (s.r8 r) s.flagC
    let t := opAluReg op r s
    t.regs.a = x.v ∧ t.flagN = (aluRouting op).n.bit x.nf s.flagN ∧ t.flagH = (aluRouting op).h.bit x.hf s.flagH ∧
      t.flagC = (aluRouting op).c.bit x.cf s.flagC := by
  dsimp only [opAluReg]
  rw [aluA_eq h]
  exact ⟨rfl, packFlags_n _ _ _ _, packFlags_h _ _ _ _, packFlags_c _ _ _ _⟩

/-- Settles O26: `DAA` corrects the sum or the difference by the flags that `ADD` or `SUB` has left. -/
theorem decimalAdjustIsDecimal : Obligations.DecimalAdjustIsDecimal := by
  intro s r x y hx hy ha hr
  constructor
  · refine ⟨_, _, exec_of_form (Instr.form_aluReg .ADD r) s, exec_of_form (f := .daa) rfl _, ?_⟩
    obtain ⟨hv, hn, hh, hc⟩ := opAluReg_daa_inputs (op := .ADD) (by decide) r s
    obtain ⟨e1, e2⟩ := opDaa_a_flagC (opAluReg .ADD r s)
    rw [e1, e2, hv, hn, hh, hc, ha, hr]
    exact bcdAdjust_add8 hx hy rfl
  · refine ⟨_, _, exec_of_form (Instr.form_aluReg .SUB r) s, exec_of_form (f := .daa) rfl _, ?_⟩
    obtain ⟨hv, hn, hh, hc⟩ := opAluReg_daa_inputs (op := .SUB) (by decide) r s
    obtain ⟨e1, e2⟩ := opDaa_a_flagC (opAluReg .SUB r s)
    rw [e1, e2, hv, hn, hh, hc, ha, hr]
    exact bcdAdjust_sub8 hx hy rfl

end Sys2Proof.Machine
end

