-- ==== Sys2Proof/Proofs/Control.lean ====
section
/-! SUPPORT. R340 to R350, R360, R364 to R368: transfers of control, the system instructions, the faulting bytes; and the
row of the byte 0xCB. -/

namespace Sys2Proof.Machine

/-- Settles O29: each is its form's operation; the conditions by F's two bits. -/
theorem jumpResult : Obligations.JumpResult :=
  fun s c nn e => ⟨rfl, rfl, rfl, exec_of_form (Instr.form_jpCond c nn) s, exec_of_form (Instr.form_jrCond c e) s,
    .of_eq (Bool.not_eq_true' _), Iff.rfl, .of_eq (Bool.not_eq_true' _), Iff.rfl⟩

/-- Settles O30: a call and a restart are a push and a transfer. -/
theorem callResult : Obligations.CallResult := by
  intro s c nn t
  simp only [← push16_eq]
  exact ⟨rfl, exec_of_form (Instr.form_callCond c nn) s, exec_of_form (Instr.form_rst t) s⟩

/-- Settles O31: each is its form's operation. -/
theorem returnResult : Obligations.ReturnResult :=
  fun s c => ⟨rfl, exec_of_form (Instr.form_retCond c) s, rfl⟩

/-- Settles O32: each is its form's operation. -/
theorem interruptControl : Obligations.InterruptControl := fun _ => ⟨rfl, rfl, rfl, rfl⟩

/-- R368: the eleven instructions of the form are the unassigned bytes. -/
theorem encode_of_form_illegal {i : Instr} {b : Byte} (h : i.form = .illegal b) :
    encode i = [b] ∧ b ∈ faultingBytes := by
  cases i <;> cases h <;> decide

/-- Settles O33: `STOP` and the form of the unassigned bytes raise their fault. -/
theorem stopAndUnassignedBytesFault : Obligations.StopAndUnassignedBytesFault :=
  fun s => ⟨rfl, fun _ _ h => ⟨exec_of_form h s, encode_of_form_illegal h⟩⟩

/-- R133: the instruction that a byte selects from the prefixed table runs the operation of PREFIX_CB's row. -/
theorem exec_decodePrefixed (b : Byte) (s : State) : exec (decodePrefixed b) s = .next (opPrefixed b s) := by
  unfold decodePrefixed opPrefixed opPrefixedReg opPrefixedHl
  rw [exec_form]
  generalize fieldX b = x
  cases R8.ofCode (fieldZ b)
  case none => rcases x with _ | _ | _ | x <;> simp [execForm]
  case some r => rcases x with _ | _ | _ | x <;> simp [execForm]

/-- Settles O5: the operation of PREFIX_CB's row is that of the selected instruction. -/
theorem prefixRunsTheSelectedInstruction : Obligations.PrefixRunsTheSelectedInstruction :=
  fun s => ⟨(exec_decodePrefixed _ s).symm, _, rfl⟩

end Sys2Proof.Machine
end

