-- ==== Sys2Proof/Proofs/BusFrame.lean ====
section
/-! SUPPORT. R83 to R86, R99: which addresses read as before after a bus write, on every platform. -/

namespace Sys2Proof.Machine

/-! ## The registers of the picture unit by address -/

/-- R39: the address of a register. -/
def PpuReg.addr : PpuReg → Word
  | .LCDC => 0xFF40#16
  | .STAT => 0xFF41#16
  | .SCY => 0xFF42#16
  | .SCX => 0xFF43#16
  | .LY => 0xFF44#16
  | .LYC => 0xFF45#16
  | .DMA => 0xFF46#16
  | .BGP => 0xFF47#16
  | .OBP0 => 0xFF48#16
  | .OBP1 => 0xFF49#16
  | .WY => 0xFF4A#16
  | .WX => 0xFF4B#16

theorem PpuReg.addr_of_ofAddr {a : Word} {r : PpuReg} (h : PpuReg.ofAddr a = some r) : a = r.addr := by
  obtain ⟨hlo, hhi⟩ := (PpuReg.ofAddr_isSome_iff a).mp (by rw [h]; rfl)
  obtain ⟨k, hk⟩ : ∃ k, a.toNat = k := ⟨_, rfl⟩
  obtain rfl : a = BitVec.ofNat 16 k := by rw [← hk]; simp
  rw [hk] at hlo hhi
  interval_cases k <;> cases h <;> rfl

/-- R451, R453, R458: a register write changes what another register reads only for LCDC (STAT, LY) and LYC (STAT). -/
theorem readReg_writePpuReg {r r' : PpuReg} (hne : r' ≠ r) (hoff : r = .LCDC → r' ≠ .STAT ∧ r' ≠ .LY)
    (hlyc : r = .LYC → r' ≠ .STAT) (d : Byte) (s : State) :
    (writePpuReg r d s).ppu.readReg r' = s.ppu.readReg r' := by
  cases r
  case LCDC =>
    obtain ⟨hstat, hly⟩ := hoff rfl
    unfold writePpuReg
    dsimp only
    split
    · rw [lcdOff, coincidence_ppu]
      cases r'
      case LCDC => exact absurd rfl hne
      case STAT => exact absurd rfl hstat
      case LY => exact absurd rfl hly
      all_goals rfl
    · cases r'
      case LCDC => exact absurd rfl hne
      all_goals rfl
  case LYC =>
    have hstat := hlyc rfl
    rw [writePpuReg, coincidence_ppu]
    cases r'
    case LYC => exact absurd rfl hne
    case STAT => exact absurd rfl hstat
    all_goals rfl
  -- Every other register is stored and nothing else.
  all_goals cases r' <;> trivial

/-- R388, R451: only LCDC and LYC can request. -/
theorem writePpuReg_iflag {r : PpuReg} (hoff : r ≠ .LCDC) (hlyc : r ≠ .LYC) (d : Byte) (s : State) :
    (writePpuReg r d s).iflag = s.iflag := by
  cases r
  case LCDC => exact absurd rfl hoff
  case LYC => exact absurd rfl hlyc
  all_goals rfl

@[simp] theorem coincidence_ie (s : State) : (coincidence s).ie = s.ie := by
  unfold coincidence
  dsimp only
  split_ifs <;> rfl

@[simp] theorem coincidence_timer (s : State) : (coincidence s).timer = s.timer := by
  unfold coincidence
  dsimp only
  split_ifs <;> rfl

/-- What a register write of the picture unit leaves outside its own registers and IF. -/
theorem writePpuReg_keeps (r : PpuReg) (d : Byte) (s : State) :
    (writePpuReg r d s).ie = s.ie ∧ (writePpuReg r d s).hram = s.hram ∧ (writePpuReg r d s).timer = s.timer ∧
      (writePpuReg r d s).ppu.vram = s.ppu.vram ∧ (writePpuReg r d s).ppu.oam = s.ppu.oam ∧
      (writePpuReg r d s).bootActive = s.bootActive := by
  cases r
  case LCDC =>
    unfold writePpuReg
    dsimp only
    split
    · simp [lcdOff]
    · exact ⟨rfl, rfl, rfl, rfl, rfl, rfl⟩
  case LYC => simp [writePpuReg]
  all_goals exact ⟨rfl, rfl, rfl, rfl, rfl, rfl⟩

/-- What a change of the timer's registers leaves: everything but IF, TIMA and the change itself. -/
theorem timerUpdate_keeps (change : Timer → Timer) (s : State) :
    (timerUpdate change s).ie = s.ie ∧ (timerUpdate change s).timer.div16 = (change s.timer).div16 ∧
      (timerUpdate change s).timer.tma = (change s.timer).tma ∧
      (timerUpdate change s).timer.tac = (change s.timer).tac := by
  unfold timerUpdate timerEdge timaIncrement
  dsimp only
  split_ifs <;> exact ⟨rfl, rfl, rfl, rfl⟩

/-! ## Reads that do not change -/

/-- Everything that a read of `b` can depend on is in `t` as in `s`, component by component. -/
structure ReadsAlike (b : Word) (s t : State) : Prop where
  platform : t.platform = s.platform
  ie : b = addrIE → t.ie = s.ie
  iflag : b = addrIF → t.iflag = s.iflag
  hram : inHighRam b = true → t.hram.read b.toNat = s.hram.read b.toNat
  div : b = addrDIV → t.timer.div16 = s.timer.div16
  tima : b = addrTIMA → t.timer.tima = s.timer.tima
  tma : b = addrTMA → t.timer.tma = s.timer.tma
  tac : b = addrTAC → t.timer.tac = s.timer.tac
  vram : inVram b = true → t.ppu.vram.read b.toNat = s.ppu.vram.read b.toNat
  oam : inOam b = true → t.ppu.oam.read (oamOffset b) = s.ppu.oam.read (oamOffset b)
  reg : ∀ r, PpuReg.ofAddr b = some r → t.ppu.readReg r = s.ppu.readReg r
  mem : ∀ c ∈ s.platform.components, ∀ k, c.storageKey b = some k → t.mem.read k = s.mem.read k
  boot : inBootWindow b = true → t.bootActive = s.bootActive

namespace ReadsAlike

variable {b : Word} {s t u : State}

theorem refl : ReadsAlike b s s :=
  ⟨rfl, fun _ => rfl, fun _ => rfl, fun _ => rfl, fun _ => rfl, fun _ => rfl, fun _ => rfl, fun _ => rfl, fun _ => rfl,
    fun _ => rfl, fun _ _ => rfl, fun _ _ _ _ => rfl, fun _ => rfl⟩

theorem trans (h : ReadsAlike b s t) (g : ReadsAlike b t u) : ReadsAlike b s u where
  platform := g.platform.trans h.platform
  ie hb := (g.ie hb).trans (h.ie hb)
  iflag hb := (g.iflag hb).trans (h.iflag hb)
  hram hb := (g.hram hb).trans (h.hram hb)
  div hb := (g.div hb).trans (h.div hb)
  tima hb := (g.tima hb).trans (h.tima hb)
  tma hb := (g.tma hb).trans (h.tma hb)
  tac hb := (g.tac hb).trans (h.tac hb)
  vram hb := (g.vram hb).trans (h.vram hb)
  oam hb := (g.oam hb).trans (h.oam hb)
  reg r hb := (g.reg r hb).trans (h.reg r hb)
  mem c hc k hk := (g.mem c (h.platform ▸ hc) k hk).trans (h.mem c hc k hk)
  boot hb := (g.boot hb).trans (h.boot hb)

/-- A component of the list answers alike. -/
theorem component_read (h : ReadsAlike b s t) {c : Component} (hc : c ∈ s.platform.components) :
    c.read t b = c.read s b := by
  cases c
  case cpu =>
    simp only [Component.read]
    split_ifs with h1 h2 h3
    · rw [h.ie h1]
    · rw [h.iflag h2]
    · rw [h.hram h3]
    · rfl
  case timer =>
    simp only [Component.read]
    split_ifs with h1 h2 h3 h4
    · rw [h.div h1]
    · rw [h.tima h2]
    · rw [h.tma h3]
    · rw [h.tac h4]
    · rfl
  case ppu =>
    simp only [Component.read]
    split_ifs with h1 h2
    · rw [h.vram h1]
    · rw [h.oam h2]
    · cases hr : PpuReg.ofAddr b with
      | none => rfl
      | some r => exact congrArg some (h.reg r hr)
  case ram r =>
    simp only [Component.read]
    split_ifs with ho
    · rw [h.mem _ hc _ (if_pos ho)]
    · rfl
  case rom r =>
    simp only [Component.read]
    split_ifs with ho
    · rw [h.mem _ hc _ (if_pos ho)]
    · rfl
  case bootRom base =>
    simp only [Component.read]
    cases hw : inBootWindow b with
    | false => simp
    | true => rw [h.boot hw, h.mem _ hc _ (if_pos hw)]

theorem busRead (h : ReadsAlike b s t) : t.busRead b = s.busRead b := by
  have hlist : ∀ cs : List Component, (∀ c ∈ cs, c.read t b = c.read s b) →
      cs.findSome? (fun c => c.read t b) = cs.findSome? (fun c => c.read s b) := by
    intro cs hcs
    induction cs with
    | nil => rfl
    | cons c rest ih =>
      rw [List.findSome?_cons, List.findSome?_cons, hcs c List.mem_cons_self,
        ih fun x hx => hcs x (List.mem_cons_of_mem c hx)]
  rw [State.busRead, State.busRead, h.platform, hlist _ fun c hc => h.component_read hc]

end ReadsAlike

/-! ## A component's write -/

/-- R85, R99: what it means that a write to `a` does not touch `b`. -/
theorem Platform.touches_eq_false_iff (p : Platform) (a b : Word) :
    p.touches a b = false ↔ a ≠ b ∧ p.shares a b = false ∧ sideEffects a b = false := by
  simp only [Platform.touches, Bool.or_eq_false_iff, decide_eq_false_iff_not, and_assoc]

/-- R85: storage that is not shared has another key. -/
theorem Platform.key_ne_of_shares {p : Platform} {a b : Word} (h : p.shares a b = false) {r : Region}
    (hr : .ram r ∈ p.components) (ho : r.owns a = true) {c : Component} (hc : c ∈ p.components) {k : Nat}
    (hk : c.storageKey b = some k) : k ≠ r.key a := by
  rintro rfl
  refine absurd h (Bool.not_eq_false _ ▸ List.any_eq_true.mpr ⟨_, hr, ?_⟩)
  simp only [ho, Bool.true_and]
  exact List.any_eq_true.mpr ⟨c, hc, by rw [hk, beq_self_eq_true]⟩

section
variable {a b : Word} {s : State} (hs : s.memoriesCanonical) (hne : a ≠ b) (d : Byte)

theorem toNat_ne (hne : a ≠ b) : b.toNat ≠ a.toNat := fun h => hne (BitVec.eq_of_toNat_eq h.symm)

include hs hne in
theorem readsAlike_cpu : ReadsAlike b s (Component.write .cpu a d s) := by
  obtain ⟨-, hhram, -, -⟩ := hs
  simp only [Component.write]
  split_ifs with h1 h2 h3
  · exact { ReadsAlike.refl (s := s) with ie := fun hb => absurd (h1.trans hb.symm) hne }
  · exact { ReadsAlike.refl (s := s) with iflag := fun hb => absurd (h2.trans hb.symm) hne }
  · exact { ReadsAlike.refl (s := s) with
      hram := fun _ => by rw [Memory.read_write hhram, if_neg (toNat_ne hne)] }
  · exact .refl

/-- R407: a change of the timer's registers is seen at the changed registers, at TIMA and at IF. -/
theorem readsAlike_timerUpdate (change : Timer → Timer) (hif : b ≠ addrIF) (htima : b ≠ addrTIMA)
    (hdiv : b = addrDIV → (change s.timer).div16 = s.timer.div16)
    (htma : b = addrTMA → (change s.timer).tma = s.timer.tma)
    (htac : b = addrTAC → (change s.timer).tac = s.timer.tac) : ReadsAlike b s (timerUpdate change s) := by
  obtain ⟨-, -, -, -, -, -, -, -, hplat⟩ := timerUpdate_sameCpu change s
  obtain ⟨hie, ediv, etma, etac⟩ := timerUpdate_keeps change s
  exact {
    platform := hplat
    ie := fun _ => hie
    iflag := fun hb => absurd hb hif
    hram := fun _ => by rw [timerUpdate_hram]
    div := fun hb => ediv.trans (hdiv hb)
    tima := fun hb => absurd hb htima
    tma := fun hb => etma.trans (htma hb)
    tac := fun hb => etac.trans (htac hb)
    vram := fun _ => by rw [timerUpdate_ppu]
    oam := fun _ => by rw [timerUpdate_ppu]
    reg := fun _ _ => by rw [timerUpdate_ppu]
    mem := fun _ _ _ _ => by rw [timerUpdate_mem]
    boot := fun _ => timerUpdate_bootActive change s }

include hne in
theorem readsAlike_timer (hside : sideEffects a b = false) : ReadsAlike b s (Component.write .timer a d s) := by
  simp only [sideEffects, Bool.or_eq_false_iff, Bool.and_eq_false_iff, decide_eq_false_iff_not] at hside
  obtain ⟨⟨⟨⟨hdiv, htac⟩, -⟩, -⟩, -⟩ := hside
  simp only [Component.write]
  split_ifs with h1 h2 h3 h4
  · obtain ⟨htima, hif⟩ := hdiv.resolve_left (not_not_intro h1)
    exact readsAlike_timerUpdate _ hif htima (fun hb => absurd (h1.trans hb.symm) hne) (fun _ => rfl) fun _ => rfl
  · exact { ReadsAlike.refl (s := s) with tima := fun hb => absurd (h2.trans hb.symm) hne }
  · exact { ReadsAlike.refl (s := s) with tma := fun hb => absurd (h3.trans hb.symm) hne }
  · obtain ⟨htima, hif⟩ := htac.resolve_left (not_not_intro h4)
    exact readsAlike_timerUpdate _ hif htima (fun _ => rfl) (fun _ => rfl) fun hb => absurd (h4.trans hb.symm) hne
  · exact .refl

include hne in
/-- R451: a register write of the picture unit is seen at its own address and where R99 says. -/
theorem readsAlike_writePpuReg {r : PpuReg} (hr : PpuReg.ofAddr a = some r) (hside : sideEffects a b = false) :
    ReadsAlike b s (writePpuReg r d s) := by
  simp only [sideEffects, Bool.or_eq_false_iff, Bool.and_eq_false_iff, decide_eq_false_iff_not] at hside
  obtain ⟨⟨⟨-, hlcdc⟩, hlyc⟩, -⟩ := hside
  have ha := PpuReg.addr_of_ofAddr hr
  have hoff : r = .LCDC → (b ≠ PpuReg.STAT.addr ∧ b ≠ PpuReg.LY.addr) ∧ b ≠ addrIF := by
    rintro rfl
    exact hlcdc.resolve_left (not_not_intro ha)
  have hco : r = .LYC → b ≠ PpuReg.STAT.addr ∧ b ≠ addrIF := by
    rintro rfl
    exact hlyc.resolve_left (not_not_intro ha)
  obtain ⟨-, -, -, -, -, -, -, -, hplat⟩ := writePpuReg_sameCpu r d s
  obtain ⟨hie, hhram, htimer, hvram, hoam, hboot⟩ := writePpuReg_keeps r d s
  exact {
    platform := hplat
    ie := fun _ => hie
    iflag := fun hb => writePpuReg_iflag (fun h => (hoff h).2 hb) (fun h => (hco h).2 hb) d s
    hram := fun _ => by rw [hhram]
    div := fun _ => by rw [htimer]
    tima := fun _ => by rw [htimer]
    tma := fun _ => by rw [htimer]
    tac := fun _ => by rw [htimer]
    vram := fun _ => by rw [hvram]
    oam := fun _ => by rw [hoam]
    reg := fun r' hr' => by
      have hb := PpuReg.addr_of_ofAddr hr'
      refine readReg_writePpuReg ?_ ?_ ?_ d s
      · rintro rfl
        exact hne (ha.trans hb.symm)
      · intro h
        exact ⟨fun e => (hoff h).1.1 (e ▸ hb), fun e => (hoff h).1.2 (e ▸ hb)⟩
      · intro h e
        exact (hco h).1 (e ▸ hb)
    mem := fun _ _ _ _ => by rw [writePpuReg_mem]
    boot := fun _ => hboot }

/-- R49: the offsets of different addresses of OAM differ. -/
theorem oamOffset_ne (hne : a ≠ b) (ha : inOam a = true) (hb : inOam b = true) : oamOffset b ≠ oamOffset a := by
  simp only [inOam, Bool.and_eq_true, decide_eq_true_eq] at ha hb
  have := toNat_ne hne
  unfold oamOffset
  omega

include hs hne in
theorem readsAlike_ppu (hside : sideEffects a b = false) : ReadsAlike b s (Component.write .ppu a d s) := by
  obtain ⟨-, -, hvram, hoam⟩ := hs
  simp only [Component.write]
  split_ifs with h1 h2
  · exact { ReadsAlike.refl (s := s) with
      vram := fun _ => by rw [Memory.read_write hvram, if_neg (toNat_ne hne)] }
  · exact { ReadsAlike.refl (s := s) with
      oam := fun hb => by rw [Memory.read_write hoam, if_neg (oamOffset_ne hne h2 hb)] }
  · split
    next r hr => exact readsAlike_writePpuReg hne d hr hside
    next => exact .refl

include hs in
theorem readsAlike_ram {r : Region} (hr : .ram r ∈ s.platform.components)
    (hshares : s.platform.shares a b = false) : ReadsAlike b s (Component.write (.ram r) a d s) := by
  obtain ⟨hmem, -, -, -⟩ := hs
  simp only [Component.write]
  split_ifs with ho
  · refine { ReadsAlike.refl (s := s) with mem := fun c hc k hk => ?_ }
    rw [Memory.read_write hmem, if_neg (Platform.key_ne_of_shares hshares hr ho hc hk)]
  · exact .refl

theorem readsAlike_bootRom (base : Nat) (hside : sideEffects a b = false) :
    ReadsAlike b s (Component.write (.bootRom base) a d s) := by
  simp only [sideEffects, Bool.or_eq_false_iff, Bool.and_eq_false_iff, decide_eq_false_iff_not] at hside
  obtain ⟨-, hboot⟩ := hside
  simp only [Component.write]
  split_ifs with h
  · have hw := hboot.resolve_left (not_not_intro h)
    exact { ReadsAlike.refl (s := s) with boot := fun hb => absurd hb (Bool.eq_false_iff.mp hw) }
  · exact .refl

end

/-- R83 to R86, R99: a component's write leaves what a read of an address that it does not touch depends on. -/
theorem Component.write_readsAlike {s : State} {a b : Word} (hs : s.memoriesCanonical) {c : Component}
    (hc : c ∈ s.platform.components) (h : s.platform.touches a b = false) (d : Byte) :
    ReadsAlike b s (c.write a d s) := by
  obtain ⟨hne, hshares, hside⟩ := (s.platform.touches_eq_false_iff a b).mp h
  cases c
  case cpu => exact readsAlike_cpu hs hne d
  case timer => exact readsAlike_timer hne d hside
  case ppu => exact readsAlike_ppu hs hne d hside
  case ram r => exact readsAlike_ram hs d hc hshares
  case rom r => exact .refl
  case bootRom base => exact readsAlike_bootRom d base hside

/-! ## The bus -/

/-- A component's write keeps every storage in canonical form. -/
theorem Component.write_memoriesCanonical (c : Component) (a : Word) (d : Byte) {s : State}
    (h : s.memoriesCanonical) : (c.write a d s).memoriesCanonical := by
  obtain ⟨hmem, hhram, hvram, hoam⟩ := h
  refine ⟨c.write_mem_wf a d hmem, ?_⟩
  cases c
  case cpu =>
    simp only [Component.write]
    split_ifs
    · exact ⟨hhram, hvram, hoam⟩
    · exact ⟨hhram, hvram, hoam⟩
    · exact ⟨Memory.wf_write hhram _ _, hvram, hoam⟩
    · exact ⟨hhram, hvram, hoam⟩
  case timer =>
    simp only [Component.write]
    split_ifs
    all_goals simpa [writeDiv, writeTima, writeTma, writeTac] using ⟨hhram, hvram, hoam⟩
  case ppu =>
    simp only [Component.write]
    split_ifs
    · exact ⟨hhram, Memory.wf_write hvram _ _, hoam⟩
    · exact ⟨hhram, hvram, Memory.wf_write hoam _ _⟩
    · split
      next r _ =>
        obtain ⟨-, ehram, -, evram, eoam, -⟩ := writePpuReg_keeps r d s
        rw [ehram, evram, eoam]
        exact ⟨hhram, hvram, hoam⟩
      next => exact ⟨hhram, hvram, hoam⟩
  case ram r =>
    simp only [Component.write]
    split_ifs
    all_goals exact ⟨hhram, hvram, hoam⟩
  case rom r => exact ⟨hhram, hvram, hoam⟩
  case bootRom base =>
    simp only [Component.write]
    split_ifs
    all_goals exact ⟨hhram, hvram, hoam⟩

theorem busWrite_memoriesCanonical {s : State} (h : s.memoriesCanonical) (a : Word) (d : Byte) :
    (s.busWrite a d).memoriesCanonical :=
  busWrite_keeps State.memoriesCanonical a d (fun c _ ht => c.write_memoriesCanonical a d ht) s h

/-- R74, R99: after a bus write every address that it does not touch reads as before. -/
theorem busRead_busWrite_of_not_touches {s : State} {a b : Word} (hs : s.memoriesCanonical)
    (h : s.platform.touches a b = false) (d : Byte) : (s.busWrite a d).busRead b = s.busRead b := by
  refine ReadsAlike.busRead (List.foldlRecOn
    (motive := fun t : State => t.memoriesCanonical ∧ ReadsAlike b s t) s.platform.components _ ⟨hs, .refl⟩
    fun t ⟨ht, hst⟩ c hc => ⟨c.write_memoriesCanonical a d ht, hst.trans ?_⟩).2
  rw [← hst.platform] at hc h
  exact Component.write_readsAlike ht hc h d

/-- R90: a component's write at an address of the ROM's or the platform's RAMs changes nothing but the platform's
storage. -/
theorem Component.write_of_plain (c : Component) {a : Word}
    (h : a.toNat < 0x8000 ∨ (0xA000 ≤ a.toNat ∧ a.toNat < 0xFE00)) (d : Byte) (s : State) :
    ∃ m, c.write a d s = { s with mem := m } := by
  have hboot : a ≠ addrBoot := by
    rintro rfl
    exact absurd h (by decide)
  cases c
  case ram r =>
    simp only [Component.write]
    split_ifs
    · exact ⟨_, rfl⟩
    · exact ⟨s.mem, rfl⟩
  case rom r => exact ⟨s.mem, rfl⟩
  case cpu => exact ⟨s.mem, Component.write_eq_self_of_read_eq_none (read_cpu_eq_none (by omega) s) (.inr hboot) d⟩
  case timer => exact ⟨s.mem, Component.write_eq_self_of_read_eq_none (read_timer_eq_none (by omega) s) (.inr hboot) d⟩
  case ppu =>
    refine ⟨s.mem, Component.write_eq_self_of_read_eq_none ?_ (.inr hboot) d⟩
    have hreg : PpuReg.ofAddr a = none := by
      rw [← Option.not_isSome_iff_eq_none, PpuReg.ofAddr_isSome_iff]
      omega
    have hv : inVram a = false := by
      simp only [inVram, Bool.and_eq_false_iff, decide_eq_false_iff_not]
      omega
    have ho : inOam a = false := by
      simp only [inOam, Bool.and_eq_false_iff, decide_eq_false_iff_not]
      omega
    simp [Component.read, hreg, hv, ho]
  case bootRom base => exact ⟨s.mem, if_neg hboot⟩

/-- R90: so does a bus write. -/
theorem busWrite_of_plain {a : Word} (h : a.toNat < 0x8000 ∨ (0xA000 ≤ a.toNat ∧ a.toNat < 0xFE00)) (d : Byte)
    (s : State) : ∃ m, s.busWrite a d = { s with mem := m } := by
  refine busWrite_keeps (fun t => ∃ m, t = { s with mem := m }) a d ?_ s ⟨s.mem, rfl⟩
  rintro c _ ⟨m, rfl⟩
  exact c.write_of_plain h d _

end Sys2Proof.Machine
end

