-- ==== Sys2Proof/Proofs/Frames.lean ====
section
/-! SUPPORT. R20 to R34, R131, R176: what the instructions of a form may have changed, said once, form by form; time, the
program counter, the register frame and the memory frame follow. -/

namespace Sys2Proof.Machine

/-! ## Stores -/

/-- The states reachable from `s` by changes of the CPU's own state and by bus writes at the addresses `as`. -/
inductive StoreReach (as : List Word) (s : State) : State → Prop where
  | refl : StoreReach as s s
  | cpu {t u : State} : StoreReach as s t → t.sameBus u → u.platform = t.platform → StoreReach as s u
  | write {t : State} {a : Word} (d : Byte) : a ∈ as → StoreReach as s t → StoreReach as s (t.busWrite a d)

namespace StoreReach

variable {as : List Word} {s t : State}

theorem platform (h : StoreReach as s t) : t.platform = s.platform := by
  induction h with
  | refl => rfl
  | cpu _ _ hp ih => exact hp.trans ih
  | write d _ _ ih => exact (busWrite_platform _ _ d).trans ih

/-- No store, no change of what the bus reaches. -/
theorem sameBus (h : StoreReach [] s t) : s.sameBus t := by
  induction h with
  | refl => exact s.sameBus_refl
  | cpu _ hb _ ih =>
    obtain ⟨a1, a2, a3, a4, a5, a6, a7⟩ := ih
    obtain ⟨b1, b2, b3, b4, b5, b6, b7⟩ := hb
    exact ⟨b1.trans a1, b2.trans a2, b3.trans a3, b4.trans a4, b5.trans a5, b6.trans a6, b7.trans a7⟩
  | write _ ha _ _ => exact absurd ha List.not_mem_nil

theorem memoriesCanonical (h : StoreReach as s t) (hs : s.memoriesCanonical) : t.memoriesCanonical := by
  induction h with
  | refl => exact hs
  | cpu _ hb _ ih =>
    obtain ⟨-, -, hhram, -, hppu, hmem, -⟩ := hb
    rwa [State.memoriesCanonical, hhram, hppu, hmem]
  | write d _ _ ih => exact busWrite_memoriesCanonical ih _ d

/-- R85, R99: an address that no store touches reads as before. -/
theorem busRead (h : StoreReach as s t) (hs : s.memoriesCanonical) {b : Word}
    (hb : ∀ a ∈ as, s.platform.touches a b = false) : t.busRead b = s.busRead b := by
  induction h with
  | refl => rfl
  | cpu _ hbus hp ih => exact (busRead_congr hbus hp b).trans ih
  | write d ha hst ih =>
    have htouch := hb _ ha
    rw [← hst.platform] at htouch
    exact (busRead_busWrite_of_not_touches (hst.memoriesCanonical hs) htouch d).trans ih

/-- R90: stores to the addresses of the ROM and the platform's RAMs reach nothing but the platform's storage. -/
theorem plain (h : StoreReach as s t) (ha : ∀ a ∈ as, a.toNat < 0x8000 ∨ (0xA000 ≤ a.toNat ∧ a.toNat < 0xFE00)) :
    t.ie = s.ie ∧ t.iflag = s.iflag ∧ t.hram = s.hram ∧ t.timer = s.timer ∧ t.ppu = s.ppu ∧
      t.bootActive = s.bootActive := by
  induction h with
  | refl => exact ⟨rfl, rfl, rfl, rfl, rfl, rfl⟩
  | cpu _ hb _ ih =>
    obtain ⟨a1, a2, a3, a4, a5, a7⟩ := ih
    obtain ⟨b1, b2, b3, b4, b5, -, b7⟩ := hb
    exact ⟨b1.trans a1, b2.trans a2, b3.trans a3, b4.trans a4, b5.trans a5, b7.trans a7⟩
  | @write t a d hm _ ih =>
    obtain ⟨m, e⟩ := busWrite_of_plain (ha a hm) d t
    rw [e]
    exact ih

end StoreReach

/-! ## Flags -/

/-- R176: the flags that a routing writes, as a mask of F. -/
def Routing.mask (ρ : Routing) : Byte :=
  packFlags (ρ.z != .keep) (ρ.n != .keep) (ρ.h != .keep) (ρ.c != .keep)

/-- R24: F is its four flags where its low nibble is 0. -/
theorem packFlags_of_low {f : Byte} (h : f &&& 0x0F#8 = 0#8) :
    packFlags (f.getLsbD 7) (f.getLsbD 6) (f.getLsbD 5) (f.getLsbD 4) = f := by
  revert f
  decide

/-- R176: outside the mask a routed F is the old one. -/
theorem Routing.apply_and_not_mask {w : Nat} (ρ : Routing) (x : AluResult w) {f : Byte} (h : f &&& 0x0F#8 = 0#8) :
    ρ.apply x f &&& ~~~ ρ.mask = f &&& ~~~ ρ.mask := by
  have hbit : ∀ (src : FlagSource) (v old : Bool), (src.bit v old && !(src != .keep)) = (old && !(src != .keep)) := by
    rintro (_ | _ | _ | _) <;> decide
  have hpack : ∀ z n h' c z' n' h'' c' : Bool, packFlags z n h' c &&& ~~~ packFlags z' n' h'' c' =
      packFlags (z && !z') (n && !n') (h' && !h'') (c && !c') := by decide
  conv_rhs => rw [← packFlags_of_low h]
  rw [Routing.apply, Routing.mask, hpack, hpack, hbit, hbit, hbit, hbit]

/-! ## The frame of a form -/

/-- What an instruction of form `f` that starts in `s` has left alone up to `t`. -/
structure FormFrame (f : Form) (s t : State) : Prop where
  regs : ∀ r : Reg, r ≠ .F → r ∉ f.writes → t.regs.get r = s.regs.get r
  flags : s.flagsLowNibbleZero → t.regs.f &&& ~~~ f.flagMask = s.regs.f &&& ~~~ f.flagMask
  sp : f.writesSp = false → t.sp = s.sp
  halted : f ≠ .halt → t.halted = s.halted
  stores : StoreReach (f.stores s) s t

namespace FormFrame

variable {f : Form} {s t u : State}

theorem refl : FormFrame f s s := ⟨fun _ _ _ => rfl, fun _ => rfl, fun _ => rfl, fun _ => rfl, .refl⟩

/-- A change of the CPU's own state, within the form's destinations. -/
theorem cpu (h : FormFrame f s t) (hb : t.sameBus u) (hp : u.platform = t.platform)
    (hr : ∀ r : Reg, r ≠ .F → r ∉ f.writes → u.regs.get r = t.regs.get r)
    (hf : s.flagsLowNibbleZero → u.regs.f &&& ~~~ f.flagMask = t.regs.f &&& ~~~ f.flagMask)
    (hsp : f.writesSp = false → u.sp = t.sp) (hh : f ≠ .halt → u.halted = t.halted) : FormFrame f s u :=
  ⟨fun r hF hw => (hr r hF hw).trans (h.regs r hF hw), fun hs => (hf hs).trans (h.flags hs),
    fun hw => (hsp hw).trans (h.sp hw),
    fun hw => (hh hw).trans (h.halted hw), .cpu h.stores hb hp⟩

/-- A change of `pc`, `next`, IME and the like. -/
theorem of_regs (h : FormFrame f s t) (hb : t.sameBus u) (hp : u.platform = t.platform) (hr : u.regs = t.regs)
    (hsp : u.sp = t.sp) (hh : u.halted = t.halted) : FormFrame f s u :=
  h.cpu hb hp (fun _ _ _ => by rw [hr]) (fun _ => by rw [hr]) (fun _ => hsp) fun _ => hh

theorem retire (h : FormFrame f s t) {s0 : State} {len cost : Nat} : FormFrame f s (s0.retire len cost t) :=
  h.of_regs ⟨rfl, rfl, rfl, rfl, rfl, rfl, rfl⟩ rfl rfl rfl rfl

theorem transfer (h : FormFrame f s t) {s0 : State} {target : Word} {cost : Nat} :
    FormFrame f s (s0.transfer target cost t) :=
  h.of_regs ⟨rfl, rfl, rfl, rfl, rfl, rfl, rfl⟩ rfl rfl rfl rfl

theorem setSp (h : FormFrame f s t) (hw : f.writesSp = true) (v : Word) : FormFrame f s { t with sp := v } :=
  h.cpu ⟨rfl, rfl, rfl, rfl, rfl, rfl, rfl⟩ rfl (fun _ _ _ => rfl) (fun _ => rfl)
    (fun hn => Bool.noConfusion (hw.symm.trans hn)) fun _ => rfl

/-- A register of the form's destinations is written. -/
theorem setReg (h : FormFrame f s t) {r : Reg} (hw : r ∈ f.writes) (hF : r ≠ .F) (v : Byte) :
    FormFrame f s { t with regs := t.regs.set r v } := by
  refine h.cpu ⟨rfl, rfl, rfl, rfl, rfl, rfl, rfl⟩ rfl (fun r' _ hr' => ?_) (fun _ => ?_) (fun _ => rfl) fun _ => rfl
  · have hne : r' ≠ r := fun e => hr' (e ▸ hw)
    simp [hne]
  · cases r
    case F => exact absurd rfl hF
    all_goals rfl

theorem setR8 (h : FormFrame f s t) {r : R8} (hw : regOf r ∈ f.writes) (v : Byte) : FormFrame f s (t.setR8 r v) :=
  h.setReg hw (by cases r <;> decide) v

theorem setHl (h : FormFrame f s t) (hh : Reg.H ∈ f.writes) (hl : Reg.L ∈ f.writes) (v : Word) :
    FormFrame f s (t.setHl v) :=
  (h.setReg hh (by decide) (highByte v)).setReg hl (by decide) (lowByte v)

/-- The flags within the form's mask are written. -/
theorem setF (h : FormFrame f s t) {v : Byte}
    (hv : s.flagsLowNibbleZero → v &&& ~~~ f.flagMask = t.regs.f &&& ~~~ f.flagMask) :
    FormFrame f s { t with regs := { t.regs with f := v } } := by
  refine h.cpu ⟨rfl, rfl, rfl, rfl, rfl, rfl, rfl⟩ rfl (fun r hF _ => ?_) hv (fun _ => rfl) fun _ => rfl
  cases r
  case F => exact absurd rfl hF
  all_goals rfl

/-- The flags are routed, F's low nibble being 0. -/
theorem route (h : FormFrame f s t) (hlow : s.flagsLowNibbleZero → t.flagsLowNibbleZero) {ρ : Routing}
    (hm : f.flagMask = ρ.mask) {w : Nat} (x : AluResult w) : FormFrame f s (t.route ρ x) :=
  h.setF fun hs => by rw [hm]; exact Routing.apply_and_not_mask ρ x (hlow hs)

theorem busWrite (h : FormFrame f s t) {a : Word} (ha : a ∈ f.stores s) (d : Byte) :
    FormFrame f s (t.busWrite a d) :=
  ⟨fun r hF hw => by rw [busWrite_regs, h.regs r hF hw], fun hs => by rw [busWrite_regs, h.flags hs],
    fun hw => (busWrite_sp t a d).trans (h.sp hw), fun hw => (busWrite_halted t a d).trans (h.halted hw),
    .write d ha h.stores⟩

theorem busWrite16 (h : FormFrame f s t) {a : Word} (hlo : a ∈ f.stores s) (hhi : a + 1#16 ∈ f.stores s) (v : Word) :
    FormFrame f s (t.busWrite16 a v) :=
  (h.busWrite hlo _).busWrite hhi _

/-- R234: a push, where the form's stores are the push's. -/
theorem push16 (hst : f.stores s = [s.sp - 2#16, s.sp - 2#16 + 1#16]) (hw : f.writesSp = true) (v : Word) :
    FormFrame f s (push16 v s) :=
  (refl.setSp hw _).busWrite16 (by simp [hst]) (by simp [hst]) v

theorem dropWord (hw : f.writesSp = true) : FormFrame f s (dropWord s) := refl.setSp hw _

/-- A pair operand is among the form's destinations. -/
def pairWithin (f : Form) : R16 → Prop
  | .BC => Reg.B ∈ f.writes ∧ Reg.C ∈ f.writes
  | .DE => Reg.D ∈ f.writes ∧ Reg.E ∈ f.writes
  | .HL => Reg.H ∈ f.writes ∧ Reg.L ∈ f.writes
  | .SP => f.writesSp = true

theorem setR16 (h : FormFrame f s t) {p : R16} (hw : pairWithin f p) (v : Word) : FormFrame f s (t.setR16 p v) := by
  cases p
  case BC => exact (h.setReg hw.1 (by decide) (highByte v)).setReg hw.2 (by decide) (lowByte v)
  case DE => exact (h.setReg hw.1 (by decide) (highByte v)).setReg hw.2 (by decide) (lowByte v)
  case HL => exact h.setHl hw.1 hw.2 v
  case SP => exact h.setSp hw v

end FormFrame

/-! ## The forms -/

/-- R233: `POP` writes its pair and `sp`. -/
theorem opPop_frame (p : R16S) (s : State) : FormFrame (.pop p) s (opPop p s) := by
  have h : FormFrame (.pop p) s (dropWord s) := .dropWord rfl
  refine FormFrame.retire ?_
  cases p
  case BC =>
    exact (h.setReg (r := .B) (by decide) (by decide) (highByte (poppedWord s))).setReg (r := .C) (by decide) (by decide)
      (lowByte (poppedWord s))
  case DE =>
    exact (h.setReg (r := .D) (by decide) (by decide) (highByte (poppedWord s))).setReg (r := .E) (by decide) (by decide)
      (lowByte (poppedWord s))
  case HL => exact h.setHl (by decide) (by decide) _
  case AF =>
    refine (h.setReg (r := .A) (by decide) (by decide) (highByte (poppedWord s))).setF
      (v := lowByte (poppedWord s) &&& 0xF0#8) fun hs => ?_
    change (_ &&& 0xF0#8) &&& 0x0F#8 = s.regs.f &&& 0x0F#8
    rw [BitVec.and_assoc, hs]
    exact BitVec.and_zero

/-- R219 to R222: the operand's update of HL. -/
theorem FormFrame.indStep {f : Form} {s t : State} (h : FormFrame f s t) (i : Ind) (a : Word)
    (hw : i = .HLinc ∨ i = .HLdec → Reg.H ∈ f.writes ∧ Reg.L ∈ f.writes) : FormFrame f s (t.indStep i a) := by
  cases i
  case BC => exact h
  case DE => exact h
  case HLinc => exact h.setHl (hw (.inl rfl)).1 (hw (.inl rfl)).2 _
  case HLdec => exact h.setHl (hw (.inr rfl)).1 (hw (.inr rfl)).2 _

/-- R250 to R264, R290 to R298: an operation on A writes the flags, and A unless it is `CP`. -/
theorem aluA_frame {f : Form} {op : AluOp} (hw : f.writes = if op = .CP then [] else [.A])
    (hm : f.flagMask = (aluRouting op).mask) (v : Byte) (s : State) : FormFrame f s (aluA op v s) := by
  have hr0 : FormFrame f s s := .refl
  cases op
  case CP => exact hr0.route id hm _
  all_goals exact (hr0.setR8 (r := .A) (by rw [hw]; decide) (aluResult _ (s.r8 .A) v s.flagC).v).route id hm _

/-- R10, R20 to R34, R176: the frame of every form but PREFIX_CB's row. -/
theorem execForm_frame {f : Form} {s t : State} (hp : f ≠ .prefixed) (h : execForm f s = .next t) : FormFrame f s t := by
  have hbus (a : Word) (d : Byte) (hs : s.flagsLowNibbleZero) : (s.busWrite a d).flagsLowNibbleZero := by
    rwa [State.flagsLowNibbleZero, busWrite_regs]
  have hset (r : R8) (v : Byte) (hs : s.flagsLowNibbleZero) : (s.setR8 r v).flagsLowNibbleZero := by
    rwa [State.flagsLowNibbleZero, State.setR8_regs, Regs.set_regOf_f]
  have hr0 : FormFrame f s s := .refl
  cases f <;> simp only [execForm, raiseStop, raiseIllegal, Host.Outcome.next.injEq, reduceCtorEq] at h <;>
    subst h
  case prefixed => exact absurd rfl hp
  case nop => exact hr0.retire
  case halt =>
    exact hr0.cpu ⟨rfl, rfl, rfl, rfl, rfl, rfl, rfl⟩ rfl (fun _ _ _ => rfl) (fun _ => rfl) (fun _ => rfl)
      fun hn => absurd rfl hn
  case di =>
    refine .retire ?_
    exact hr0.of_regs ⟨rfl, rfl, rfl, rfl, rfl, rfl, rfl⟩ rfl rfl rfl rfl
  case ei =>
    refine .retire ?_
    exact hr0.of_regs ⟨rfl, rfl, rfl, rfl, rfl, rfl, rfl⟩ rfl rfl rfl rfl
  case ldRegReg d r => exact .retire (.setR8 hr0 (List.mem_singleton_self _) _)
  case ldRegImm d n => exact .retire (.setR8 hr0 (List.mem_singleton_self _) _)
  case ldRegHl d => exact .retire (.setR8 hr0 (List.mem_singleton_self _) _)
  case ldHlReg r => exact .retire (.busWrite hr0 (List.mem_singleton_self _) _)
  case ldHlImm n => exact .retire (.busWrite hr0 (List.mem_singleton_self _) _)
  case ldAInd i => exact .retire (.indStep (.setR8 hr0 (r := .A) (by cases i <;> decide) _) i _ (by cases i <;> decide))
  case ldIndA i => exact .retire (.indStep (.busWrite hr0 (List.mem_singleton_self _) _) i _ (by cases i <;> decide))
  case ldhLoad n => exact .retire (.setR8 hr0 (r := .A) (List.mem_singleton_self _) _)
  case ldhStore n => exact .retire (.busWrite hr0 (List.mem_singleton_self _) _)
  case ldCLoad => exact .retire (.setR8 hr0 (r := .A) (List.mem_singleton_self _) _)
  case ldCStore => exact .retire (.busWrite hr0 (List.mem_singleton_self _) _)
  case ldAbsLoad nn => exact .retire (.setR8 hr0 (r := .A) (List.mem_singleton_self _) _)
  case ldAbsStore nn => exact .retire (.busWrite hr0 (List.mem_singleton_self _) _)
  case ldPairImm p nn =>
    refine .retire ?_
    refine .setR16 hr0 ?_ _
    cases p
    case SP => rfl
    all_goals exact ⟨.head _, .tail _ (.head _)⟩
  case ldAbsSp nn =>
    refine .retire ?_
    exact hr0.busWrite16 (.head _) (.tail _ (.head _)) _
  case ldSpHl => exact .retire (.setSp hr0 rfl _)
  case push p => exact .retire (.push16 rfl rfl _)
  case pop p => exact opPop_frame p s
  case aluReg op r => exact .retire (aluA_frame rfl (by cases op <;> rfl) _ s)
  case aluImm op n => exact .retire (aluA_frame rfl (by cases op <;> rfl) _ s)
  case aluHl op => exact .retire (aluA_frame rfl (by cases op <;> rfl) _ s)
  case incReg r => exact .retire (.route (.setR8 hr0 (List.mem_singleton_self _) _) (hset _ _) rfl _)
  case decReg r => exact .retire (.route (.setR8 hr0 (List.mem_singleton_self _) _) (hset _ _) rfl _)
  case incHl => exact .retire (.route (.busWrite hr0 (List.mem_singleton_self _) _) (hbus _ _) rfl _)
  case decHl => exact .retire (.route (.busWrite hr0 (List.mem_singleton_self _) _) (hbus _ _) rfl _)
  case incPair p =>
    refine .retire ?_
    refine .setR16 hr0 ?_ _
    cases p
    case SP => rfl
    all_goals exact ⟨.head _, .tail _ (.head _)⟩
  case decPair p =>
    refine .retire ?_
    refine .setR16 hr0 ?_ _
    cases p
    case SP => rfl
    all_goals exact ⟨.head _, .tail _ (.head _)⟩
  case addHl p => exact .retire (.route (.setHl hr0 (.head _) (.tail _ (.head _)) _) id rfl _)
  case addSp e =>
    refine .retire (.route ?_ ?_ ?_ _)
    · exact .setSp hr0 rfl _
    · exact id
    · rfl
  case ldHlSp e => exact .retire (.route (.setHl hr0 (.head _) (.tail _ (.head _)) _) id rfl _)
  case cpl =>
    refine .retire (.route ?_ ?_ ?_ _)
    · exact .setR8 hr0 (r := .A) (List.mem_singleton_self _) _
    · exact id
    · rfl
  case daa =>
    refine .retire (.route ?_ ?_ ?_ _)
    · exact .setR8 hr0 (r := .A) (List.mem_singleton_self _) _
    · exact id
    · rfl
  case scf => exact .retire (.route hr0 id rfl _)
  case ccf =>
    -- `CCF` routes as `SCF` does, with the complement of C for the carry.
    refine .retire ?_
    have hf : packFlags s.flagZ false false (!s.flagC) =
        Routing.apply ⟨.keep, .zero, .zero, .alu⟩ (shifted 0#8 (!s.flagC)) s.regs.f :=
      rfl
    rw [hf]
    exact hr0.route id rfl (shifted 0#8 (!s.flagC))
  case rotA k =>
    refine .retire (.route ?_ ?_ ?_ _)
    · exact .setR8 hr0 (r := .A) (List.mem_singleton_self _) _
    · exact id
    · rfl
  case rotReg k r => exact .retire (.route (.setR8 hr0 (List.mem_singleton_self _) _) (hset _ _) (by cases k <;> rfl) _)
  case rotHl k => exact .retire (.route (.busWrite hr0 (List.mem_singleton_self _) _) (hbus _ _) (by cases k <;> rfl) _)
  case bitReg b r => exact .retire (.route hr0 id rfl _)
  case bitHl b => exact .retire (.route hr0 id rfl _)
  case resReg b r => exact .retire (.setR8 hr0 (List.mem_singleton_self _) _)
  case resHl b => exact .retire (.busWrite hr0 (List.mem_singleton_self _) _)
  case setReg b r => exact .retire (.setR8 hr0 (List.mem_singleton_self _) _)
  case setHl b => exact .retire (.busWrite hr0 (List.mem_singleton_self _) _)
  case jp nn => exact hr0.transfer
  case jpHl => exact hr0.transfer
  case jr e => exact hr0.transfer
  case jpCond c nn =>
    unfold opJpCond
    split
    · exact hr0.transfer
    · exact hr0.retire
  case jrCond c e =>
    unfold opJrCond
    split
    · exact hr0.transfer
    · exact hr0.retire
  case call nn => exact .transfer (.push16 rfl rfl _)
  case callCond c nn =>
    unfold opCallCond
    split
    case isTrue hc =>
      refine .transfer (.push16 ?_ rfl _)
      exact if_pos hc
    case isFalse => exact hr0.retire
  case ret => exact .transfer (.dropWord rfl)
  case retCond c =>
    unfold opRetCond
    split
    · exact .transfer (.dropWord rfl)
    · exact hr0.retire
  case reti =>
    have h : FormFrame .reti s (dropWord s) := .dropWord rfl
    refine .transfer ?_
    exact h.of_regs ⟨rfl, rfl, rfl, rfl, rfl, rfl, rfl⟩ rfl rfl rfl rfl
  case rst t => exact .transfer (.push16 rfl rfl _)

end Sys2Proof.Machine
end

