-- ==== Sys2Proof/Proofs/TableTime.lean ====
section
/-! SUPPORT. R128, R131, R393: where an instruction of a form ends and when; with the frame of a form, the statements on
completion, the program counter, the registers and memory. -/

namespace Sys2Proof

/-! The rows of the forms that stand for one row. -/

theorem Instr.eq_HALT_of_form {i : Instr} (h : i.form = .halt) : i = .HALT := by
  cases i <;> cases h
  rfl

theorem Instr.eq_STOP_of_form {i : Instr} (h : i.form = .stop) : i = .STOP := by
  cases i <;> cases h
  rfl

theorem Instr.eq_PREFIX_CB_of_form {i : Instr} (h : i.form = .prefixed) : i = .PREFIX_CB := by
  cases i <;> cases h
  rfl

end Sys2Proof

namespace Sys2Proof.Machine

/-- What an instruction of form `f` that starts in `s` has done to the program counter and the boundary. -/
structure FormTime (f : Form) (s t : State) : Prop where
  next : f ≠ .halt → t.next = s.cycles + f.entry.cycles + (if f.taken s = true then f.entry.extra else 0)
  halts : f = .halt → t.halted = true ∧ t.next = s.next
  pc : t.pc = (f.target s).getD (s.pc + BitVec.ofNat 16 f.entry.length)
  calls : f.calls s = true →
    t = { push16 (s.pc + BitVec.ofNat 16 f.entry.length) s with pc := t.pc, next := t.next }

/-- A conditional transfer whose condition is false retires. -/
theorem FormTime.of_not_taken {f : Form} {s t : State} (hh : f ≠ .halt) (ht : f.taken s = false)
    (ha : f.target s = none) (hc : f.calls s = false) :
    FormTime f s (s.retire f.entry.length f.entry.cycles t) where
  next _ := by rw [ht]; rfl
  halts h := absurd h hh
  pc := by rw [ha]; rfl
  calls h := Bool.noConfusion (hc.symm.trans h)

/-- A conditional transfer whose condition holds goes to its target. -/
theorem FormTime.of_taken {f : Form} {s t : State} {a : Word} (hh : f ≠ .halt) (ht : f.taken s = true)
    (ha : f.target s = some a) (hc : f.calls s = true → t = push16 (s.pc + BitVec.ofNat 16 f.entry.length) s) :
    FormTime f s (s.transfer a (f.entry.cycles + f.entry.extra) t) where
  next _ := by rw [ht, Nat.add_assoc]; rfl
  halts h := absurd h hh
  pc := by rw [ha]; rfl
  calls h := by rw [← hc h]; rfl

/-- R366, R381: every form but the faulting ones completes. -/
theorem execForm_completes {f : Form} (hp : f ≠ .prefixed) (hs : f ≠ .stop) (hi : ∀ b, f ≠ .illegal b) (s : State) :
    ∃ t, execForm f s = .next t ∧ FormTime f s t := by
  cases f
  case prefixed => exact absurd rfl hp
  case stop => exact absurd rfl hs
  case illegal b => exact absurd rfl (hi b)
  case halt => exact ⟨_, rfl, fun h => absurd rfl h, fun _ => ⟨rfl, rfl⟩, rfl, nofun⟩
  case call nn => exact ⟨_, rfl, fun _ => rfl, nofun, rfl, fun _ => rfl⟩
  case rst t => exact ⟨_, rfl, fun _ => rfl, nofun, rfl, fun _ => rfl⟩
  case jpCond c nn =>
    refine ⟨_, rfl, ?_⟩
    unfold opJpCond
    split
    case isTrue h => exact .of_taken (f := .jpCond c nn) nofun h (if_pos h) nofun
    case isFalse h => exact .of_not_taken (f := .jpCond c nn) nofun (eq_false_of_ne_true h) (if_neg h) rfl
  case jrCond c e =>
    refine ⟨_, rfl, ?_⟩
    unfold opJrCond
    split
    case isTrue h => exact .of_taken (f := .jrCond c e) nofun h (if_pos h) nofun
    case isFalse h => exact .of_not_taken (f := .jrCond c e) nofun (eq_false_of_ne_true h) (if_neg h) rfl
  case callCond c nn =>
    refine ⟨_, rfl, ?_⟩
    unfold opCallCond
    split
    case isTrue h => exact .of_taken (f := .callCond c nn) nofun h (if_pos h) fun _ => rfl
    case isFalse h =>
      exact .of_not_taken (f := .callCond c nn) nofun (eq_false_of_ne_true h) (if_neg h) (eq_false_of_ne_true h)
  case retCond c =>
    refine ⟨_, rfl, ?_⟩
    unfold opRetCond
    split
    case isTrue h => exact .of_taken (f := .retCond c) nofun h (if_pos h) nofun
    case isFalse h => exact .of_not_taken (f := .retCond c) nofun (eq_false_of_ne_true h) (if_neg h) rfl
  all_goals exact ⟨_, rfl, fun _ => rfl, nofun, rfl, nofun⟩

/-- An instruction that is not PREFIX_CB's row and completes has its form's frame and time. -/
theorem exec_frame_time {i : Instr} {s t : State} (hw : i.WellFormed) (h : exec i s = .next t) :
    FormFrame i.form s t ∧ FormTime i.form s t := by
  rw [exec_form] at h
  have hp : i.form ≠ .prefixed := fun e => hw (Instr.eq_PREFIX_CB_of_form e)
  have hs : i.form ≠ .stop := fun e => by rw [e] at h; cases h
  have hi (b : Byte) : i.form ≠ .illegal b := fun e => by rw [e] at h; cases h
  obtain ⟨t', ht', htime⟩ := execForm_completes hp hs hi s
  cases h.symm.trans ht'
  exact ⟨execForm_frame hp h, htime⟩

/-- A well-formed instruction other than `STOP` and the unassigned bytes completes. -/
theorem exec_completes {i : Instr} (hw : i.WellFormed) (hs : i ≠ .STOP) (hi : ∀ b, i.form ≠ .illegal b) (s : State) :
    ∃ t, exec i s = .next t := by
  obtain ⟨t, ht, -⟩ := execForm_completes (fun e => hw (Instr.eq_PREFIX_CB_of_form e))
    (fun e => hs (Instr.eq_STOP_of_form e)) hi s
  exact ⟨t, (exec_form i s).trans ht⟩

/-- Settles O7: every form but the faulting ones completes at its entry's cost. -/
theorem everyInstructionCompletesAtItsTableCost : Obligations.EveryInstructionCompletesAtItsTableCost := by
  unfold Obligations.EveryInstructionCompletesAtItsTableCost
  intro i s hw hs hi
  obtain ⟨t, ht⟩ := exec_completes hw hs hi s
  obtain ⟨hframe, htime⟩ := exec_frame_time hw ht
  refine ⟨t, ht, fun h => htime.halts (by rw [h]; rfl), fun h => ?_⟩
  have hf : i.form ≠ .halt := fun e => h (Instr.eq_HALT_of_form e)
  rw [Instr.entry_form]
  exact ⟨hframe.halted hf, htime.next hf⟩

/-- Settles O8: each form ends at its target or behind itself, and a call is a push of the address behind it. -/
theorem programCounterAdvance : Obligations.ProgramCounterAdvance := by
  unfold Obligations.ProgramCounterAdvance
  refine ⟨fun i s t hw h => ?_, fun s => ⟨_, rfl, ?_⟩⟩
  · obtain ⟨-, htime⟩ := exec_frame_time hw h
    rw [Instr.entry_form]
    refine ⟨fun hn => ?_, fun a ha => ?_, fun hc => ?_⟩
    · rw [htime.pc, hn, Option.getD_none]
    · rw [htime.pc, ha, Option.getD_some]
    · rw [← push16_eq]
      exact htime.calls hc
  · -- The offset -2 of `0xFE` cancels the length of the jump itself.
    change s.pc + 2#16 + 0xFFFE#16 = s.pc
    bv_omega

/-- Settles O9: the frame of the form, and what no bus write and no change of the CPU's own state reaches. -/
theorem registerFrame : Obligations.RegisterFrame := by
  unfold Obligations.RegisterFrame
  intro i s t hw hlow h
  obtain ⟨hframe, -⟩ := exec_frame_time hw h
  obtain ⟨hcycles, hplatform, hfault⟩ := (exec_reach i s t h).fixed
  exact ⟨hframe.regs, hframe.flags hlow, hframe.sp, exec_keeps_ime i s t h,
    fun hn => hframe.halted fun e => hn (Instr.eq_HALT_of_form e), hfault, hcycles, hplatform⟩

/-- Settles O10: an instruction's stores are its form's. -/
theorem memoryFrame : Obligations.MemoryFrame := by
  unfold Obligations.MemoryFrame
  intro i s t hw hmem h
  obtain ⟨hframe, -⟩ := exec_frame_time hw h
  exact ⟨fun hnone => (hnone ▸ hframe.stores).sameBus, fun b hb => hframe.stores.busRead hmem hb,
    fun hplain _ => hframe.stores.plain hplain⟩

end Sys2Proof.Machine
end

