-- ==== Sys2Proof/Proofs/DeviceSteps.lean ====
section
/-! SUPPORT. R388, R420, R422: what the devices' steps of a tick leave alone and do not read: memory, IE and the boot bit
stay, IF gains bits 0 to 2 only, and whether the CPU is halted does not matter. -/

namespace Sys2Proof.Machine

/-- R394: the state of a CPU woken in this tick. -/
def State.awake (s : State) : State := { s with halted := false, next := s.cycles }

/-- R388, R422: what a device's step leaves, and the bits of IF that it may set. -/
def State.RequestsOnly (s t : State) : Prop :=
  t.ie = s.ie ∧ t.hram = s.hram ∧ t.mem = s.mem ∧ t.bootActive = s.bootActive ∧
    ∃ m : Byte, t.iflag = s.iflag ||| m ∧ m &&& 0xF8#8 = 0#8

theorem State.requestsOnly_of_iflag {s t : State} (hie : t.ie = s.ie) (hh : t.hram = s.hram) (hm : t.mem = s.mem)
    (hb : t.bootActive = s.bootActive) (hi : t.iflag = s.iflag) :
    s.RequestsOnly t :=
  ⟨hie, hh, hm, hb, 0#8, by rw [hi, BitVec.or_zero], rfl⟩

theorem State.RequestsOnly.trans {s t u : State} (h : s.RequestsOnly t) (h' : t.RequestsOnly u) : s.RequestsOnly u := by
  obtain ⟨hie, hh, hm, hb, m, hi, hlow⟩ := h
  obtain ⟨hie', hh', hm', hb', m', hi', hlow'⟩ := h'
  refine ⟨hie'.trans hie, hh'.trans hh, hm'.trans hm, hb'.trans hb, m ||| m', ?_, ?_⟩
  · rw [hi', hi, BitVec.or_assoc]
  · rw [BitVec.and_comm, BitVec.and_or_distrib_left, BitVec.and_comm, hlow, BitVec.and_comm, hlow', BitVec.or_zero]

/-- A part of the devices' steps: it only requests interrupts, and it does alike for a CPU just woken. -/
structure DeviceAction (f : State → State) : Prop where
  requests : ∀ s : State, s.RequestsOnly (f s)
  awake : ∀ s : State, f s.awake = (f s).awake

namespace DeviceAction

theorem id : DeviceAction fun s => s := ⟨fun _ => State.requestsOnly_of_iflag rfl rfl rfl rfl rfl, fun _ => rfl⟩

theorem comp {f g : State → State} (hf : DeviceAction f) (hg : DeviceAction g) : DeviceAction fun s => f (g s) :=
  ⟨fun s => (hg.requests s).trans (hf.requests _), fun s => by rw [hg.awake, hf.awake]⟩

/-- A choice by a test that does not read whether the CPU is halted. -/
theorem ite {c : State → Prop} [DecidablePred c] {f g : State → State} (hf : DeviceAction f) (hg : DeviceAction g)
    (hc : ∀ s : State, c s.awake ↔ c s := by exact fun _ => Iff.rfl) :
    DeviceAction fun s => if c s then f s else g s := by
  refine ⟨fun s => ?_, fun s => ?_⟩
  · split
    · exact hf.requests s
    · exact hg.requests s
  · simp only [hc, hf.awake, hg.awake, apply_ite State.awake]

theorem ite_const {p : Prop} [Decidable p] {f g : State → State} (hf : DeviceAction f) (hg : DeviceAction g) :
    DeviceAction fun s => if p then f s else g s :=
  .ite (c := fun _ => p) hf hg

/-- A change of the devices' own state. -/
theorem of_iflag {f : State → State} (hr : ∀ s, (f s).ie = s.ie ∧ (f s).hram = s.hram ∧ (f s).mem = s.mem ∧
    (f s).bootActive = s.bootActive ∧ (f s).iflag = s.iflag := by exact fun _ => ⟨rfl, rfl, rfl, rfl, rfl⟩)
    (ha : ∀ s : State, f s.awake = (f s).awake := by exact fun _ => rfl) : DeviceAction f :=
  ⟨fun s => let ⟨hie, hh, hm, hb, hi⟩ := hr s; State.requestsOnly_of_iflag hie hh hm hb hi, ha⟩

/-- A request of line 0, 1 or 2 on top of an action. -/
theorem request {f : State → State} (hf : DeviceAction f) {i : Line} (hi : mask 8 i.index &&& 0xF8#8 = 0#8) :
    DeviceAction fun s => requestInterrupt i (f s) :=
  ⟨fun s => (hf.requests s).trans ⟨rfl, rfl, rfl, rfl, _, rfl, hi⟩, fun s => congrArg (requestInterrupt i) (hf.awake s)⟩

theorem timaIncrement : DeviceAction timaIncrement :=
  .ite (c := fun s => s.timer.tima = 0xFF#8)
    (.request (f := fun s => { s with timer := { s.timer with tima := s.timer.tma } }) .of_iflag (by decide)) .of_iflag

theorem timerStep : DeviceAction timerStep := by
  have hchange : DeviceAction fun s => { s with timer := { s.timer with div16 := s.timer.div16 + 4#16 } } := .of_iflag
  exact .ite (c := fun s => (timerSignal s.timer &&
    !timerSignal { s.timer with div16 := s.timer.div16 + 4#16 }) = true) (timaIncrement.comp hchange) hchange

theorem coincidence : DeviceAction coincidence := by
  have hset : DeviceAction fun s => { s with ppu := { s.ppu with stat := setBit s.ppu.stat 2 true } } := .of_iflag
  exact .ite (c := fun s => s.ppu.ly = s.ppu.lyc)
    (.ite (c := fun s => s.ppu.stat.getLsbD 6 = true) (hset.request (i := .LCD_STAT) (by decide)) hset) .of_iflag

theorem setLY (v : Byte) : DeviceAction (setLY v) :=
  coincidence.comp (g := fun s => { s with ppu := { s.ppu with ly := v } }) .of_iflag

theorem setMode (m : Nat) : DeviceAction (setMode m) := by
  have hset : DeviceAction fun s =>
      { s with ppu := { s.ppu with stat := statWithMode s.ppu.stat (BitVec.ofNat 8 m) } } := .of_iflag
  exact .ite (c := fun s => m ≠ 3 ∧ s.ppu.stat.getLsbD (3 + m) = true) (hset.request (i := .LCD_STAT) (by decide)) hset

theorem vblankEntry : DeviceAction vblankEntry :=
  .request (f := fun s => { s with ppu := { s.ppu with currentImage := latchFrom s.cycles 0 s.ppu.nextFrame } })
    .of_iflag (by decide)

theorem lineStart (line : Nat) : DeviceAction (lineStart line) := by
  have hFrame : DeviceAction fun s => if line = 0 then frameStart s else s := .ite_const .of_iflag .id
  have hScan : DeviceAction fun s => if line < lcdHeight then Machine.setMode 2 s else s := .ite_const (setMode 2) .id
  have hBlank : DeviceAction fun s => if line = lcdHeight then Machine.setMode 1 s else s := .ite_const (setMode 1) .id
  have hLatch : DeviceAction fun s => if line = lcdHeight then Machine.vblankEntry s else s := .ite_const vblankEntry .id
  exact hLatch.comp ((setLY _).comp (hBlank.comp (hScan.comp hFrame)))

theorem pixelTransfer (line : Nat) : DeviceAction (pixelTransfer line) :=
  .comp (f := fun s => { s with ppu := { s.ppu with
      nextFrame := s.ppu.nextFrame.set line (some (s.ppu.computeLine s.platform.obj16MaskBit0 line))
      winY := s.ppu.nextWinY line } }) .of_iflag (setMode 3)

theorem lcdStep : DeviceAction lcdStep := by
  refine .ite (c := fun s => s.ppu.lcdActive = true) ?_ .id
  have hAction (p : Nat) : DeviceAction (lcdAction p) :=
    .ite_const (lineStart _) (.ite_const (pixelTransfer _) (.ite_const (setMode 0) .id))
  exact ⟨fun s => (hAction _).requests s, fun s => (hAction (framePosition s)).awake s⟩

theorem lcdStart : DeviceAction lcdStart :=
  .ite (c := fun s => (!s.ppu.lcdActive && s.ppu.lcdc.getLsbD 7) = true) .of_iflag .id

theorem dmaStep : DeviceAction dmaStep := by
  refine .ite (c := fun s => s.ppu.dmaActive = true) ?_ .id
  refine .of_iflag (ha := fun s => ?_)
  rw [busRead_congr (s := s) (t := s.awake) ⟨rfl, rfl, rfl, rfl, rfl, rfl, rfl⟩ rfl]
  rfl

theorem devicesStep : DeviceAction devicesStep := lcdStep.comp (lcdStart.comp (dmaStep.comp timerStep))

end DeviceAction

/-- Settles O39: the device steps only request lines 0 to 2. -/
theorem devicesReachTheCpuOnlyThroughIf : Obligations.DevicesReachTheCpuOnlyThroughIf := by
  unfold Obligations.DevicesReachTheCpuOnlyThroughIf
  exact fun s => ⟨devicesStep_sameCpu s, DeviceAction.devicesStep.requests s⟩

end Sys2Proof.Machine
end

