-- ==== Sys2Proof/Proofs/Steps.lean ====
section
/-! SUPPORT. R380, R381, R390 to R394, R420, R421: what a step of the whole machine is, case by case, and what the host's
run makes of it. -/

namespace Sys2Proof.Machine

/-! ## The boundary of a tick -/

theorem wake_of_not_halted {d : State} (h : d.halted = false) : wake d = d := by
  simp [wake, h]

theorem wake_of_pend {d : State} (hh : d.halted = true) (hp : d.pend ≠ 0#8) : wake d = d.awake :=
  if_pos ⟨hh, hp⟩

/-- A CPU at its boundary is as a woken one. -/
theorem State.awake_eq_self {d : State} (hh : d.halted = false) (hn : d.next = d.cycles) : d.awake = d := by
  cases d
  cases hh
  cases hn
  rfl

theorem runBoundary_of_idle {d : State} (h : d.halted = true ∨ d.cycles ≠ d.next) : runBoundary d = .next d :=
  if_pos h

theorem runBoundary_of_boundary {d : State} (hh : d.halted = false) (hn : d.next = d.cycles) :
    runBoundary d = atBoundary d :=
  if_neg (by simp [hh, hn])

theorem atBoundary_of_recognised {d : State} {i : Line} (h : d.recognised = some i) :
    atBoundary d = .next (dispatch i d) := by
  rw [atBoundary, h]

theorem atBoundary_of_not_recognised {d : State} (h : d.recognised = none) : atBoundary d = exec d.fetched d := by
  rw [atBoundary, h]

/-- R391: IME off, or nothing enabled and pending. -/
theorem State.recognised_eq_none {d : State} (h : d.ime = true → d.pend = 0#8) : d.recognised = none := by
  unfold State.recognised
  split
  · rw [h ‹_›]
    rfl
  · rfl

/-- Settles O6: the boundary runs what is fetched, and a fetch decodes the bytes at `pc`. -/
theorem stepRunsTheDecodedInstruction : Obligations.StepRunsTheDecodedInstruction := by
  unfold Obligations.StepRunsTheDecodedInstruction
  intro s i rest hfault hhalted hnext hpend hdecode
  obtain ⟨-, hpc, -, hime, hhalted', hnext', -, hcycles, -⟩ := devicesStep_sameCpu s
  have hfetched : (devicesStep s).fetched = i := by
    rw [State.fetched, hpc]
    exact decodeAt_of_decode _ _ _ _ hdecode
  have hrec : (devicesStep s).recognised = none := State.recognised_eq_none (by rwa [hime])
  rw [step_of_fault_eq_none hfault, wake_of_not_halted (hhalted'.trans hhalted),
    runBoundary_of_boundary (hhalted'.trans hhalted) (by rw [hnext', hcycles, hnext]),
    atBoundary_of_not_recognised hrec, hfetched]
  cases exec i (devicesStep s) <;> rfl

/-- Settles O37: an idle boundary leaves the state; a woken CPU's tick is a boundary, and the device steps do not see the
wake. -/
theorem idleTicksAndHaltWake : Obligations.IdleTicksAndHaltWake := by
  unfold Obligations.IdleTicksAndHaltWake
  refine ⟨fun s hfault h => ?_, fun s hfault hhalted hpend => ?_⟩
  · obtain ⟨-, -, -, -, hhalted, hnext, -, hcycles, -⟩ := devicesStep_sameCpu s
    have hidle : wake (devicesStep s) = devicesStep s ∧
        ((devicesStep s).halted = true ∨ (devicesStep s).cycles ≠ (devicesStep s).next) := by
      rw [hhalted, hcycles, hnext]
      rcases h with ⟨hh, hp⟩ | ⟨hh, hn⟩
      · exact ⟨State.quiet.wake_eq (.inl hp), .inl hh⟩
      · exact ⟨wake_of_not_halted (hhalted.trans hh), .inr hn⟩
    rw [step_of_fault_eq_none hfault, hidle.1, runBoundary_of_idle hidle.2]
    rfl
  · have hd : (devicesStep s).halted = true := (devicesStep_sameCpu s).2.2.2.2.1.trans hhalted
    change step s = step s.awake
    rw [step_of_fault_eq_none hfault, step_of_fault_eq_none (s := s.awake) hfault, DeviceAction.devicesStep.awake,
      wake_of_pend hd hpend, wake_of_not_halted (d := (devicesStep s).awake) rfl]
    rfl

/-! ## Dispatch -/

/-- R390: the bits of lines 0 to 4. -/
theorem State.pend_getLsbD (d : State) {j : Nat} (hj : j < 5) : d.pend.getLsbD j = (d.ie &&& d.iflag).getLsbD j := by
  rw [State.pend, BitVec.getLsbD_and]
  interval_cases j <;> exact Bool.and_true _

/-- R391: the line of the lowest set bit. -/
theorem lowestLine_eq_some {p : Byte} {i : Line} (hi : p.getLsbD i.index = true)
    (hlow : ∀ j < i.index, p.getLsbD j = false) : lowestLine p = some i := by
  unfold lowestLine
  cases i
  case VBLANK => exact if_pos hi
  case LCD_STAT => rw [hlow 0 (by decide)]; exact if_pos hi
  case TIMER => rw [hlow 0 (by decide), hlow 1 (by decide)]; exact if_pos hi
  case SERIAL => rw [hlow 0 (by decide), hlow 1 (by decide), hlow 2 (by decide)]; exact if_pos hi
  case JOYPAD =>
    rw [hlow 0 (by decide), hlow 1 (by decide), hlow 2 (by decide), hlow 3 (by decide)]
    exact if_pos hi

theorem Line.index_lt (i : Line) : i.index < 5 := by cases i <;> decide

/-- R392: what a dispatch in the tick of a wake or at a boundary does. -/
theorem dispatch_awake (i : Line) (d : State) : dispatch i d.awake =
    { ({ d with
          ime := false, iflag := d.iflag &&& ~~~ (1#8 <<< i.index)
          sp := d.sp - 2#16, halted := false, next := d.cycles }.busWrite (d.sp - 2#16) (lowByte d.pc)).busWrite
            (d.sp - 1#16) (highByte d.pc) with
      pc := BitVec.ofNat 16 (0x40 + 8 * i.index), next := d.cycles + 5 } := by
  rw [dispatch, push16_eq]
  rfl

/-- R390 to R392: a boundary dispatches the lowest enabled pending line. -/
theorem runBoundary_awake {d : State} {i : Line} (hime : d.ime = true)
    (hi : (d.ie &&& d.iflag).getLsbD i.index = true) (hlow : ∀ j < i.index, (d.ie &&& d.iflag).getLsbD j = false) :
    runBoundary d.awake = .next (dispatch i d.awake) := by
  have hl : lowestLine d.pend = some i := by
    refine lowestLine_eq_some ?_ fun j hj => ?_
    · rwa [State.pend_getLsbD _ i.index_lt]
    · rw [State.pend_getLsbD _ (hj.trans i.index_lt), hlow j hj]
  have hrec : d.awake.recognised = some i := (if_pos hime).trans hl
  rw [runBoundary_of_boundary rfl rfl, atBoundary_of_recognised hrec]

/-- R393, R394: where a line is enabled and pending, the wake test leaves a boundary. -/
theorem wake_eq_awake {d : State} (hpend : d.pend ≠ 0#8) (hat : d.halted = true ∨ d.next = d.cycles) :
    wake d = d.awake := by
  rcases Bool.eq_false_or_eq_true d.halted with hh | hh
  · exact wake_of_pend hh hpend
  · rw [wake_of_not_halted hh, State.awake_eq_self hh (hat.resolve_left (by simp [hh]))]

/-- Settles O36: a boundary and a wake dispatch alike, the wake's own writes being overwritten. -/
theorem dispatchTakesTheLowestLine : Obligations.DispatchTakesTheLowestLine := by
  unfold Obligations.DispatchTakesTheLowestLine
  intro s i hfault hime hat hbit hlow
  rw [step_of_fault_eq_none hfault]
  obtain ⟨-, hpc, hsp, hime', hhalted, hnext, -, hcycles, -⟩ := devicesStep_sameCpu s
  generalize devicesStep s = d at *
  have hpend : d.pend ≠ 0#8 := fun e => by
    rw [← State.pend_getLsbD _ i.index_lt, e] at hbit
    simp at hbit
  rw [wake_eq_awake hpend (by rwa [hhalted, hnext, hcycles]), runBoundary_awake (hime'.trans hime) hbit hlow,
    dispatch_awake, ← hpc, ← hsp, ← hcycles]
  rfl

/-! ## Faults -/

/-- R137: the fetched instruction's first byte stands at `pc`, and PREFIX_CB's row is never fetched. -/
theorem State.fetched_spec (d : State) :
    d.fetched.WellFormed ∧ ∃ rest, encode d.fetched = d.busRead d.pc :: rest := by
  unfold State.fetched decodeAt
  split
  case isTrue h => exact ⟨wellFormed_decodePrefixed _, _, by rw [encode_decodePrefixed, h]⟩
  case isFalse h =>
    split <;> exact ⟨wellFormed_decodeDirect h _ _, _, encode_decodeDirect h _ _⟩

/-- R368: `STOP` is not among the unassigned bytes. -/
theorem form_illegal_ne_stop {i : Instr} {b : Byte} (h : i.form = .illegal b) : b ≠ 0x10#8 := by
  cases i <;> cases h <;> decide

/-- R380: what is fetched completes, or is one of the twelve bytes and faults. -/
theorem exec_fetched (d : State) :
    (∃ t, exec d.fetched d = .next t ∧ t.fault = d.fault) ∨
      d.busRead d.pc ∈ faultingBytes ∧ exec d.fetched d = .fault (faultOf d.pc (d.busRead d.pc)) := by
  obtain ⟨hw, rest, hrest⟩ := d.fetched_spec
  by_cases hs : d.fetched = .STOP
  · have hb : d.busRead d.pc = 0x10#8 := by
      rw [hs] at hrest
      exact (List.head_eq_of_cons_eq hrest).symm
    right
    rw [hb, hs]
    exact ⟨by decide, rfl⟩
  by_cases hi : ∃ b, d.fetched.form = .illegal b
  · obtain ⟨b, hb⟩ := hi
    obtain ⟨henc, hmem⟩ := encode_of_form_illegal hb
    have hread : d.busRead d.pc = b := (List.head_eq_of_cons_eq (henc.symm.trans hrest)).symm
    right
    rw [hread, exec_of_form hb, faultOf, if_neg (form_illegal_ne_stop hb)]
    exact ⟨hmem, rfl⟩
  · left
    obtain ⟨t, ht⟩ := exec_completes hw hs (not_exists.mp hi) d
    exact ⟨t, ht, (exec_reach _ _ _ ht).fixed.2.2⟩

/-- R380: so does what a tick does after the wake test. -/
theorem runBoundary_completes (d : State) :
    (∃ t, runBoundary d = .next t ∧ t.fault = d.fault) ∨
      d.busRead d.pc ∈ faultingBytes ∧ runBoundary d = .fault (faultOf d.pc (d.busRead d.pc)) := by
  unfold runBoundary atBoundary
  split
  · exact .inl ⟨d, rfl, rfl⟩
  · split
    next i _ => exact .inl ⟨_, rfl, by simp [dispatch]⟩
    · exact exec_fetched d

theorem wake_fault (d : State) : (wake d).fault = d.fault := by
  unfold wake; split <;> rfl

theorem wake_pc (d : State) : (wake d).pc = d.pc := by
  unfold wake; split <;> rfl

theorem wake_busRead (d : State) (a : Word) : (wake d).busRead a = d.busRead a := by
  unfold wake
  split
  · exact busRead_congr (s := d) (t := d.awake) ⟨rfl, rfl, rfl, rfl, rfl, rfl, rfl⟩ rfl a
  · rfl

/-- R380, R384, R420: a step of a machine without a fault completes or faults with the first byte at `pc`. -/
theorem step_completes {s : State} (hf : s.fault = none) :
    (∃ t, step s = .next t ∧ t.fault = none) ∨
      (devicesStep s).busRead s.pc ∈ faultingBytes ∧
        step s = .fault (faultOf s.pc ((devicesStep s).busRead s.pc)) := by
  obtain ⟨-, hpc, -, -, -, -, hfault, -, -⟩ := devicesStep_sameCpu s
  have hstep := runBoundary_completes (wake (devicesStep s))
  rw [wake_pc, hpc, wake_busRead, wake_fault, hfault, hf] at hstep
  rw [step_of_fault_eq_none hf]
  refine hstep.imp (fun ⟨t, ht, htf⟩ => ?_) fun ⟨hmem, h⟩ => ⟨hmem, by rw [h]; rfl⟩
  exact ⟨t.endTick s.cycles, by rw [ht]; rfl, htf⟩

/-- Settles O34: only the fetched instruction can fault, and it faults on the twelve first bytes. -/
theorem stepFaultsOnlyOnTwelveBytes : Obligations.StepFaultsOnlyOnTwelveBytes := by
  unfold Obligations.StepFaultsOnlyOnTwelveBytes
  exact fun _ hf => step_completes hf

/-! ## Runs -/

theorem step_of_fault {s : State} {f : Fault} (h : s.fault = some f) : step s = .fault f := by
  rw [step, h]

/-- R381: a faulted machine answers its fault and does not change. -/
theorem runTicks_of_fault {s : State} {f : Fault} (h : s.fault = some f) (n : Nat) :
    runTicks (n + 1) s = (s, some f) := by
  rw [runTicks, step_of_fault h]
  exact congrArg (·, some f) (if_neg (by simp [h]))

theorem runUntil_of_fault {s : State} {f : Fault} (h : s.fault = some f) (target : Nat) :
    runUntil target s = (s, some f) := by
  rw [runUntil, h]

/-- Settles O35: the faulting tick keeps the device steps' state, which leaves the CPU; from then on `step`, `runTicks`
and `runUntil` answer the recorded fault. -/
theorem faultIsPreciseAndTerminal : Obligations.FaultIsPreciseAndTerminal := by
  unfold Obligations.FaultIsPreciseAndTerminal
  intro s f hf h
  obtain ⟨hregs, hpc, hsp, hime, hhalted, hnext, -, hcycles, -⟩ := devicesStep_sameCpu s
  have hu : (faultedState f s).fault = some f := rfl
  refine ⟨faultedState f s, rfl, hregs, hpc, hsp, hime, hhalted, hnext, hcycles, fun n => ?_, step_of_fault hu,
    runTicks_of_fault hu, runUntil_of_fault hu⟩
  rw [runTicks, h]
  exact congrArg (·, some f) (if_pos hf)

/-- R421: `n` ticks that report no fault count `n` and leave no fault. -/
theorem runTicks_of_no_fault {n : Nat} {s : State} (hf : s.fault = none) (h : (runTicks n s).2 = none) :
    (runTicks n s).1.cycles = s.cycles + n ∧ (runTicks n s).1.fault = none := by
  induction n generalizing s with
  | zero => exact ⟨rfl, hf⟩
  | succ n ih =>
    rcases step_completes hf with ⟨t, ht, htf⟩ | ⟨-, hfault⟩
    · have hcycles : t.cycles = s.cycles + 1 := by
        obtain ⟨-, u, -, rfl⟩ := step_cases s t ht
        rfl
      rw [runTicks, ht] at h ⊢
      obtain ⟨hc, hnone⟩ := ih htf h
      exact ⟨by rw [hc, hcycles]; omega, hnone⟩
    · rw [runTicks, hfault] at h
      cases h

/-- Settles O40: a run until a target is the run of the missing ticks. -/
theorem runUntilReachesItsTarget : Obligations.RunUntilReachesItsTarget := by
  unfold Obligations.RunUntilReachesItsTarget
  intro s target hf
  have hrun : s.cycles ≤ target → runUntil target s = runTicks (target - s.cycles) s := fun h => by
    rw [runUntil, hf]
    exact if_neg (by omega)
  refine ⟨fun h => ?_, ?_, fun h hnone => ?_⟩
  · rw [runUntil, hf]
    exact if_pos h
  · rw [runUntil, hf]
    simp [runTicks]
  · rw [hrun h] at hnone ⊢
    obtain ⟨hc, hfault⟩ := runTicks_of_no_fault hf hnone
    exact ⟨by omega, hfault⟩

end Sys2Proof.Machine
end

