-- ==== Sys2Proof/Proofs/TimerRate.lean ====
section
/-! SUPPORT. R406 to R413, R458, R460: the timer's signal and how often it falls; the writes to its registers and to LYC
and DMA. -/

namespace Sys2Proof.Machine

/-! ## The signal and the registers -/

/-- R406: the selected divider bit by TAC[1:0]. -/
theorem selBit_extract (tac : Byte) : selBit (extract tac 0 2) =
    if tac &&& 3#8 = 0#8 then 9 else if tac &&& 3#8 = 1#8 then 3 else if tac &&& 3#8 = 2#8 then 5 else 7 := by
  revert tac
  decide

/-- Settles O42: the selected bit by cases of TAC[1:0], and the increment's two branches. -/
theorem timaIncrementsOnFallingEdge : Obligations.TimaIncrementsOnFallingEdge := by
  unfold Obligations.TimaIncrementsOnFallingEdge
  intro s0 s
  refine ⟨?_, timerEdge_eq_ite s0 s⟩
  rw [timerSignal, selBit_extract]

/-- Settles O43: both writes are the timer's update, and with the divider at 0 the signal is false. -/
theorem divAndTacWrites : Obligations.DivAndTacWrites := by
  unfold Obligations.DivAndTacWrites
  intro s d
  refine ⟨?_, timerEdge_eq_ite _ _, fun hp => ⟨?_, ?_⟩⟩
  · have hlow (t : Timer) : timerSignal { t with div16 := 0#16 } = false := by simp [timerSignal]
    refine (timerEdge_eq_ite (timerSignal s.timer) { s with timer := { s.timer with div16 := 0#16 } }).trans ?_
    simp only [hlow, and_true]
  · exact (bus_eq_timer hp (by decide) (by decide) d).1
  · exact (bus_eq_timer hp (by decide) (by decide) d).1

/-- R458: the coincidence as bit 2 of STAT. -/
theorem setBit_two_eq (stat : Byte) (b : Bool) :
    setBit stat 2 b = (stat &&& 0xFB#8) ||| (if b = true then 0x04#8 else 0#8) := by
  revert stat b
  decide

/-- R458: the coincidence check in one equation. -/
theorem coincidence_eq (s : State) : coincidence s = { s with
    ppu := { s.ppu with stat := (s.ppu.stat &&& 0xFB#8) ||| (if s.ppu.ly = s.ppu.lyc then 0x04#8 else 0#8) }
    iflag := if s.ppu.ly = s.ppu.lyc ∧ s.ppu.stat.getLsbD 6 = true then s.iflag ||| 0x02#8 else s.iflag } := by
  unfold coincidence
  split
  case isTrue h =>
    split
    case isTrue h6 => simp [h, h6, setBit_two_eq, requestInterrupt, mask, Line.index]
    case isFalse h6 => simp [h, h6, setBit_two_eq, -BitVec.getLsbD_eq_getElem]
  case isFalse h => simp [h, setBit_two_eq]

/-- Settles O48: the write is the store and the coincidence check. -/
theorem lycWriteEvaluatesCoincidence : Obligations.LycWriteEvaluatesCoincidence := by
  unfold Obligations.LycWriteEvaluatesCoincidence
  intro s d
  have hread (t : State) : Component.read .ppu t 0xFF45#16 = some t.ppu.lyc := rfl
  have hwrite : Component.write .ppu 0xFF45#16 d s = coincidence { s with ppu := { s.ppu with lyc := d } } :=
    Component.write_ppu_of_ofAddr (r := .LYC) rfl d s
  have hback : Component.read .ppu (Component.write .ppu 0xFF45#16 d s) 0xFF45#16 = some d := by
    rw [hread, hwrite, coincidence_ppu]
  refine ⟨hwrite.trans (coincidence_eq _), hback, fun hp => ?_⟩
  have hbus := (bus_eq_ppu hp (a := 0xFF45#16) (by decide) (by decide) d).1
  have hp' : (s.busWrite 0xFF45#16 d).platform = Platform.default := (busWrite_platform _ _ _).trans hp
  refine ⟨hbus, Option.some.inj ((bus_eq_ppu hp' (by decide) (by decide) d).2.trans ?_)⟩
  rw [hbus, hback]

/-- Settles O51: the write stores the page and starts the copy. -/
theorem dmaWriteStartsTheCopy : Obligations.DmaWriteStartsTheCopy := by
  unfold Obligations.DmaWriteStartsTheCopy
  intro s d
  have hwrite := Component.write_ppu_of_ofAddr (a := 0xFF46#16) (r := .DMA) rfl d s
  have hback : Component.read .ppu (Component.write .ppu 0xFF46#16 d s) 0xFF46#16 = some d := by
    rw [hwrite]
    rfl
  refine ⟨hwrite, hback, fun hp => ?_⟩
  have hbus := (bus_eq_ppu hp (a := 0xFF46#16) (by decide) (by decide) d).1
  have hp' : (s.busWrite 0xFF46#16 d).platform = Platform.default := (busWrite_platform _ _ _).trans hp
  refine ⟨hbus, Option.some.inj ((bus_eq_ppu hp' (by decide) (by decide) d).2.trans ?_)⟩
  rw [hbus, hback]

/-! ## The rate -/

/-- R406: half a period of the selected bit, in divider counts. -/
def Timer.half (t : Timer) : Nat := 2 ^ selBit (extract t.tac 0 2)

/-- R413: the divider's place in the period. -/
def Timer.phase (t : Timer) : Nat := t.div16.toNat % (2 * t.half)

/-- A period divides the divider's 2^16, and half of it is at least the four counts of a step. -/
theorem Timer.period_dvd (t : Timer) : 2 * t.half ∣ 65536 ∧ 4 ∣ t.half := by
  have h : selBit (extract t.tac 0 2) ∈ [9, 3, 5, 7] := by
    rw [selBit_extract]
    split_ifs <;> decide
  simp only [List.mem_cons, List.not_mem_nil, or_false] at h
  unfold Timer.half
  obtain h | h | h | h := h <;> rw [h] <;> decide

/-- R406: an enabled timer's signal is set in the second half of the period. -/
theorem timerSignal_eq_decide {t : Timer} (h : t.tac.getLsbD 2 = true) :
    timerSignal t = decide (t.half ≤ t.phase) := by
  rw [timerSignal, h, Bool.true_and, BitVec.getLsbD, Nat.testBit_eq_decide_div_mod_eq, ← Timer.half]
  have hmod : t.phase = t.div16.toNat % t.half + t.half * (t.div16.toNat / t.half % 2) := by
    rw [Timer.phase, Nat.mul_comm, Nat.mod_mul]
  have hlt : t.div16.toNat % t.half < t.half := Nat.mod_lt _ (Nat.two_pow_pos _)
  refine decide_eq_decide.mpr ?_
  rw [hmod]
  obtain h0 | h1 := Nat.mod_two_eq_zero_or_one (t.div16.toNat / t.half)
  · rw [h0]; omega
  · rw [h1]; omega

/-- R408, R413: a step moves the phase by 4. -/
theorem Timer.phase_add (t : Timer) (k : Nat) :
    Timer.phase { t with div16 := t.div16 + BitVec.ofNat 16 k } = (t.phase + k) % (2 * t.half) := by
  change (t.div16 + BitVec.ofNat 16 k).toNat % (2 * t.half) = _
  rw [BitVec.toNat_add, BitVec.toNat_ofNat, Nat.add_mod_mod, Nat.mod_mod_of_dvd _ t.period_dvd.1, Timer.phase,
    Nat.mod_add_mod]

/-- The state with the divider moved on and nothing else changed. -/
def State.divAdd (s : State) (k : Nat) : State :=
  { s with timer := { s.timer with div16 := s.timer.div16 + BitVec.ofNat 16 k } }

/-- R407, R413: within the period the signal does not fall. -/
theorem timerStep_of_phase_lt {s : State} (he : s.timer.tac.getLsbD 2 = true)
    (h : s.timer.phase + 4 < 2 * s.timer.half) : timerStep s = s.divAdd 4 := by
  refine (timerStep_eq_ite s).trans (if_neg ?_)
  change ¬(timerSignal s.timer = true ∧ timerSignal (s.divAdd 4).timer = false)
  have hphase : (s.divAdd 4).timer.phase = s.timer.phase + 4 := by
    rw [State.divAdd, Timer.phase_add, Nat.mod_eq_of_lt h]
  rw [timerSignal_eq_decide he, timerSignal_eq_decide (t := (s.divAdd 4).timer) he, hphase]
  change ¬(decide (s.timer.half ≤ _) = true ∧ decide (s.timer.half ≤ _) = false)
  simp only [decide_eq_true_eq, decide_eq_false_iff_not]
  omega

/-- R407, R413: at the period's end it falls. -/
theorem timerStep_of_phase_ge {s : State} (he : s.timer.tac.getLsbD 2 = true)
    (h : 2 * s.timer.half ≤ s.timer.phase + 4) : timerStep s = timaIncrement (s.divAdd 4) := by
  refine (timerStep_eq_ite s).trans (if_pos ?_)
  change timerSignal s.timer = true ∧ timerSignal (s.divAdd 4).timer = false
  have hpos : 0 < s.timer.half := Nat.two_pow_pos _
  have hdvd := s.timer.period_dvd.2
  have hlt : s.timer.phase < 2 * s.timer.half := Nat.mod_lt _ (by omega)
  have hphase : (s.divAdd 4).timer.phase = s.timer.phase + 4 - 2 * s.timer.half := by
    rw [State.divAdd, Timer.phase_add, Nat.mod_eq_sub_mod h, Nat.mod_eq_of_lt (by omega)]
  rw [timerSignal_eq_decide he, timerSignal_eq_decide (t := (s.divAdd 4).timer) he, hphase]
  change decide (s.timer.half ≤ _) = true ∧ decide (s.timer.half ≤ _) = false
  simp only [decide_eq_true_eq, decide_eq_false_iff_not]
  omega

/-- R413: steps that stay in the period only move the divider. -/
theorem timerStep_iterate_of_phase_lt {s : State} (he : s.timer.tac.getLsbD 2 = true) {k : Nat}
    (h : s.timer.phase + 4 * k < 2 * s.timer.half) : timerStep^[k] s = s.divAdd (4 * k) := by
  induction k with
  | zero => simp [State.divAdd]
  | succ k ih =>
    have hk : s.timer.phase + 4 * k < 2 * s.timer.half := by omega
    have hphase : (s.divAdd (4 * k)).timer.phase = s.timer.phase + 4 * k := by
      rw [State.divAdd, Timer.phase_add, Nat.mod_eq_of_lt hk]
    rw [Function.iterate_succ_apply', ih hk, timerStep_of_phase_lt (s := s.divAdd (4 * k)) he (by rw [hphase]; exact h)]
    simp [State.divAdd, BitVec.add_assoc, Nat.mul_succ, BitVec.ofNat_add]

theorem timaIncrement_tac (s : State) : (timaIncrement s).timer.tac = s.timer.tac := by
  unfold timaIncrement
  split <;> rfl

/-- R412: the increment does not move the phase. -/
theorem timaIncrement_phase (s : State) : (timaIncrement s).timer.phase = s.timer.phase ∧
    (timaIncrement s).timer.half = s.timer.half := by
  unfold timaIncrement
  split <;> exact ⟨rfl, rfl⟩

theorem State.phase_divAdd (s : State) (k : Nat) : (s.divAdd k).timer.phase = (s.timer.phase + k) % (2 * s.timer.half) :=
  s.timer.phase_add k

/-- R413: the steps of one period are an increment of TIMA and moves of the divider. -/
theorem timerStep_iterate_period {s : State} (he : s.timer.tac.getLsbD 2 = true) :
    ∃ k l, timerStep^[s.timer.half / 2] s = (timaIncrement (s.divAdd k)).divAdd l := by
  have hdvd := s.timer.period_dvd.2
  have hpos : 0 < s.timer.half := Nat.two_pow_pos _
  have hlt : s.timer.phase < 2 * s.timer.half := Nat.mod_lt _ (by omega)
  -- The step that reaches the end of the period is step `k`.
  obtain ⟨k, hk⟩ : ∃ k, k = (2 * s.timer.half - 1 - s.timer.phase) / 4 := ⟨_, rfl⟩
  have hbefore : s.timer.phase + 4 * k < 2 * s.timer.half := by omega
  have hphase : (s.divAdd (4 * k)).timer.phase = s.timer.phase + 4 * k := by
    rw [State.phase_divAdd, Nat.mod_eq_of_lt hbefore]
  have hfall : timerStep (s.divAdd (4 * k)) = timaIncrement ((s.divAdd (4 * k)).divAdd 4) := by
    refine timerStep_of_phase_ge he ?_
    rw [hphase]
    change 2 * s.timer.half ≤ _
    omega
  have hadd : (s.divAdd (4 * k)).divAdd 4 = s.divAdd (4 * k + 4) := by
    simp [State.divAdd, BitVec.add_assoc, BitVec.ofNat_add]
  -- After it the phase is below 4, and the rest of the steps stay in the next period.
  obtain ⟨hphase', hhalf'⟩ := timaIncrement_phase (s.divAdd (4 * k + 4))
  obtain ⟨l, hl⟩ : ∃ l, s.timer.half / 2 = l + (1 + k) := ⟨s.timer.half / 2 - (1 + k), by omega⟩
  have hafter : (timaIncrement (s.divAdd (4 * k + 4))).timer.phase + 4 * l <
      2 * (timaIncrement (s.divAdd (4 * k + 4))).timer.half := by
    rw [hphase', hhalf', State.phase_divAdd, Nat.mod_eq_sub_mod (by omega), Nat.mod_eq_of_lt (by omega)]
    change _ < 2 * s.timer.half
    omega
  have he' : (timaIncrement (s.divAdd (4 * k + 4))).timer.tac.getLsbD 2 = true := by rwa [timaIncrement_tac]
  refine ⟨4 * k + 4, 4 * l, ?_⟩
  rw [hl, Function.iterate_add_apply, Function.iterate_add_apply, timerStep_iterate_of_phase_lt he hbefore,
    Function.iterate_one, hfall, hadd, timerStep_iterate_of_phase_lt he' hafter]

/-- R412: an increment of TIMA, whatever the divider. -/
theorem timaIncrement_spec (s : State) :
    (s.timer.tima ≠ 0xFF#8 → (timaIncrement s).timer.tima = s.timer.tima + 1#8 ∧ (timaIncrement s).iflag = s.iflag) ∧
    (s.timer.tima = 0xFF#8 →
      (timaIncrement s).timer.tima = s.timer.tma ∧ (timaIncrement s).iflag = s.iflag ||| 0x04#8) := by
  unfold timaIncrement
  refine ⟨fun h => ?_, fun h => ?_⟩
  · rw [if_neg h]
    exact ⟨rfl, rfl⟩
  · rw [if_pos h]
    exact ⟨rfl, rfl⟩

/-- Settles O44: the signal falls in exactly one step of a period. -/
theorem timerRate : Obligations.TimerRate := by
  unfold Obligations.TimerRate
  intro s n he hn
  have hperiod : n = s.timer.half / 2 := by
    rw [hn, Timer.half, selBit_extract]
    split_ifs <;> rfl
  obtain ⟨k, l, h⟩ := timerStep_iterate_period he
  rw [hperiod, h]
  exact timaIncrement_spec (s.divAdd k)

end Sys2Proof.Machine
end

