-- ==== Sys2Proof/Proofs/DefaultMap.lean ====
section
/-! SUPPORT. R34, R48, R49, R80 to R85, R90, R95: the default platform's map. A cell of plain storage has one owner, and a
store to it is read back at its addresses only; what is pushed is popped. -/

namespace Sys2Proof.Machine

/-! ## Who answers -/

/-- R48, R49: video RAM, OAM and high RAM by the address as a number. -/
theorem inVram_eq (a : Word) : inVram a = decide (0x8000 ≤ a.toNat ∧ a.toNat ≤ 0x9FFF) :=
  (Bool.decide_and _ _).symm

theorem inOam_eq (a : Word) : inOam a = decide (0xFE00 ≤ a.toNat ∧ a.toNat ≤ 0xFE9F) :=
  (Bool.decide_and _ _).symm

theorem inHighRam_eq (a : Word) : inHighRam a = decide (0xFF80 ≤ a.toNat ∧ a.toNat ≤ 0xFFFE) :=
  (Bool.decide_and _ _).symm

/-- R82: the picture unit answers nothing below its registers but video RAM and OAM. -/
theorem Component.read_ppu_eq_none_of_lt {a : Word} (h : a.toNat < 0xFF40) (hv : inVram a = false)
    (ho : inOam a = false) (s : State) : Component.read .ppu s a = none := by
  have hreg : PpuReg.ofAddr a = none := by
    rw [← Option.not_isSome_iff_eq_none, PpuReg.ofAddr_isSome_iff]
    omega
  simp [Component.read, hreg, hv, ho]

/-- R83, R84: a region answers only what it owns. -/
theorem Component.read_region_eq_none {r : Region} {a : Word} (h : a.toNat < r.start ∨ r.start + r.size ≤ a.toNat)
    (s : State) : Component.read (.ram r) s a = none ∧ Component.read (.rom r) s a = none := by
  have ho : r.owns a = false := by
    simp only [Region.owns, Bool.and_eq_false_iff, decide_eq_false_iff_not]
    omega
  simp [Component.read, ho]

/-! ## Cells -/

/-- The byte of a cell of plain storage. -/
def State.cell (s : State) (k : Nat) : Byte :=
  if k < 0xA000 then s.ppu.vram.read k
  else if k < 0xFE00 then s.mem.read k
  else if k < 0xFF00 then s.ppu.oam.read (k - 0xFE00)
  else s.hram.read k

/-- A cell of plain storage written. -/
def State.setCell (s : State) (k : Nat) (d : Byte) : State :=
  if k < 0xA000 then { s with ppu := { s.ppu with vram := s.ppu.vram.write k d } }
  else if k < 0xFE00 then { s with mem := s.mem.write k d }
  else if k < 0xFF00 then { s with ppu := { s.ppu with oam := s.ppu.oam.write (k - 0xFE00) d } }
  else { s with hram := s.hram.write k d }

theorem State.cell_setCell {s : State} (hs : s.memoriesCanonical) (k : Nat) (d : Byte) : (s.setCell k d).cell k = d := by
  obtain ⟨hmem, hhram, hvram, hoam⟩ := hs
  unfold State.cell State.setCell
  split_ifs
  · exact (Memory.read_write hvram _ _ _).trans (if_pos rfl)
  · exact (Memory.read_write hmem _ _ _).trans (if_pos rfl)
  · exact (Memory.read_write hoam _ _ _).trans (if_pos rfl)
  · exact (Memory.read_write hhram _ _ _).trans (if_pos rfl)

/-- The addresses of a cell: its own, or its echo. -/
theorem storageCell_eq_some_iff {a : Word} {k : Nat} : storageCell a = some k ↔
    (k = a.toNat ∧
      (0x8000 ≤ k ∧ k ≤ 0x9FFF ∨ 0xC000 ≤ k ∧ k ≤ 0xDFFF ∨ 0xFE00 ≤ k ∧ k ≤ 0xFE9F ∨ 0xFF80 ≤ k ∧ k ≤ 0xFFFE)) ∨
      k + 0x2000 = a.toNat ∧ 0xE000 ≤ a.toNat ∧ a.toNat ≤ 0xFDFF := by
  unfold storageCell
  split_ifs <;> simp only [Option.some.injEq, false_iff] <;> omega

/-- Where the owner of a cell's address accesses the cell, so does the bus. -/
theorem bus_eq_cell_of_owner {s : State} {a : Word} {k : Nat} {d : Byte} {before after : List Component} {c : Component}
    (hl : s.platform.components = before ++ c :: after) (hb : ∀ x ∈ before, ∀ t : State, x.read t a = none)
    (haft : ∀ x ∈ after, ∀ t : State, x.read t a = none) (ha : a ≠ addrBoot) (hw : c.write a d s = s.setCell k d)
    (hr : c.read s a = some (s.cell k)) : s.busWrite a d = s.setCell k d ∧ s.busRead a = s.cell k := by
  obtain ⟨hwrite, hread⟩ := bus_eq_of_unique_owner hl hb haft (by rw [hr]; rfl) ha d
  exact ⟨hwrite.trans hw, Option.some.inj (hread.trans hr)⟩

/-- R83: a RAM that owns an address accesses its cell of the platform's storage. -/
theorem Component.ram_eq_cell {r : Region} {a : Word} {k : Nat} (ho : r.owns a = true) (hk : r.key a = k)
    (hlo : 0xA000 ≤ k) (hhi : k < 0xFE00) (d : Byte) (s : State) :
    Component.write (.ram r) a d s = s.setCell k d ∧ Component.read (.ram r) s a = some (s.cell k) := by
  have hlo' : ¬k < 0xA000 := by omega
  simp [Component.write, Component.read, ho, hk, State.setCell, State.cell, hlo', hhi]

/-- R34, R48, R49, R83, R85, R90: on the default platform every access to an address of plain storage is one to
its cell. -/
theorem bus_eq_cell {s : State} (hp : s.platform = Platform.default) {a : Word} {k : Nat} (h : storageCell a = some k)
    (d : Byte) : s.busWrite a d = s.setCell k d ∧ s.busRead a = s.cell k := by
  have hcs : s.platform.components = [.cpu, .timer, .ppu, cartridgeRom, workRam, echoRam] := by rw [hp]; rfl
  have hboot : a ≠ addrBoot := by
    rintro rfl
    simp [storageCell, addrBoot] at h
  have hcpu (hlt : a.toNat < 0xFF0F) (t : State) := Component.read_cpu_eq_none (a := a) (.inl hlt) t
  have htimer (hne : a.toNat < 0xFF04 ∨ 0xFF07 < a.toNat) (t : State) := Component.read_timer_eq_none hne t
  have hppu (hlt : a.toNat < 0xFF40) (hv : ¬(0x8000 ≤ a.toNat ∧ a.toNat ≤ 0x9FFF))
      (ho : ¬(0xFE00 ≤ a.toNat ∧ a.toNat ≤ 0xFE9F)) (t : State) : Component.read .ppu t a = none :=
    Component.read_ppu_eq_none_of_lt hlt (by rw [inVram_eq]; exact decide_eq_false hv)
      (by rw [inOam_eq]; exact decide_eq_false ho) t
  have hrom (hge : 0x8000 ≤ a.toNat) (t : State) : cartridgeRom.read t a = none :=
    (Component.read_region_eq_none (.inr (by simpa using hge)) t).2
  have hwork (hne : a.toNat < 0xC000 ∨ 0xE000 ≤ a.toNat) (t : State) : workRam.read t a = none :=
    (Component.read_region_eq_none (by simpa using hne) t).1
  have hecho (hne : a.toNat < 0xE000 ∨ 0xFE00 ≤ a.toNat) (t : State) : echoRam.read t a = none :=
    (Component.read_region_eq_none (by simpa using hne) t).1
  obtain ⟨rfl, hv | hw | ho | hh⟩ | ⟨hk, he⟩ := storageCell_eq_some_iff.mp h
  case inl.inl =>
    have hvram : inVram a = true := by rw [inVram_eq]; exact decide_eq_true hv
    have hlt : a.toNat < 0xA000 := by omega
    refine bus_eq_cell_of_owner (c := .ppu) (before := [.cpu, .timer]) hcs ?_ ?_ hboot ?_ ?_
    · simp [hcpu (by omega), htimer (by omega)]
    · simp [hrom (by omega), hwork (by omega), hecho (by omega)]
    · simp [Component.write, hvram, State.setCell, hlt]
    · simp [Component.read, hvram, State.cell, hlt]
  case inl.inr.inl =>
    have hown : Region.owns ⟨0xC000, 0x2000, 0xC000⟩ a = true := by
      simp only [Region.owns, Bool.and_eq_true, decide_eq_true_eq]; omega
    obtain ⟨hwrite, hread⟩ := Component.ram_eq_cell hown (k := a.toNat) (by simp only [Region.key]; omega)
      (by omega) (by omega) d s
    refine bus_eq_cell_of_owner (before := [.cpu, .timer, .ppu, cartridgeRom]) hcs ?_ ?_ hboot hwrite hread
    · simp [hcpu (by omega), htimer (by omega), hppu (by omega) (by omega) (by omega), hrom (by omega)]
    · simp [hecho (by omega)]
  case inl.inr.inr.inl =>
    have hoam : inOam a = true := by rw [inOam_eq]; exact decide_eq_true ho
    have hvram : inVram a = false := by rw [inVram_eq]; exact decide_eq_false (by omega)
    have hk : ¬a.toNat < 0xA000 ∧ ¬a.toNat < 0xFE00 ∧ a.toNat < 0xFF00 := by omega
    refine bus_eq_cell_of_owner (c := .ppu) (before := [.cpu, .timer]) hcs ?_ ?_ hboot ?_ ?_
    · simp [hcpu (by omega), htimer (by omega)]
    · simp [hrom (by omega), hwork (by omega), hecho (by omega)]
    · simp only [Component.write, hvram, hoam, Bool.false_eq_true, State.setCell, hk.1, hk.2.1, hk.2.2, if_true,
        if_false]
      rfl
    · simp only [Component.read, hvram, hoam, Bool.false_eq_true, State.cell, hk.1, hk.2.1, hk.2.2, if_true, if_false]
      rfl
  case inl.inr.inr.inr =>
    have hhigh : inHighRam a = true := by rw [inHighRam_eq]; exact decide_eq_true hh
    have hie : a ≠ addrIE ∧ a ≠ addrIF := by
      constructor
      all_goals
        rintro rfl
        simp [addrIE, addrIF] at hh
    have hk : ¬a.toNat < 0xA000 ∧ ¬a.toNat < 0xFE00 ∧ ¬a.toNat < 0xFF00 := by omega
    refine bus_eq_cell_of_owner (c := .cpu) (before := []) hcs (by simp) ?_ hboot ?_ ?_
    · simp [htimer (by omega), Component.read_ppu_eq_none (a := a) (by omega) (by omega), hrom (by omega),
        hwork (by omega), hecho (by omega)]
    · simp only [Component.write, hhigh, hie.1, hie.2, State.setCell, hk.1, hk.2.1, hk.2.2, if_true, if_false]
    · simp only [Component.read, hhigh, hie.1, hie.2, State.cell, hk.1, hk.2.1, hk.2.2, if_true, if_false]
  case inr =>
    have hown : Region.owns ⟨0xE000, 0x1E00, 0xC000⟩ a = true := by
      simp only [Region.owns, Bool.and_eq_true, decide_eq_true_eq]; omega
    obtain ⟨hwrite, hread⟩ := Component.ram_eq_cell hown (k := k) (by simp only [Region.key]; omega)
      (by omega) (by omega) d s
    refine bus_eq_cell_of_owner (before := [.cpu, .timer, .ppu, cartridgeRom, workRam]) hcs ?_ (by simp) hboot
      hwrite hread
    simp [hcpu (by omega), htimer (by omega), hppu (by omega) (by omega) (by omega), hrom (by omega), hwork (by omega)]

/-! ## Other addresses -/

/-- R99: no address of plain storage is a register's. -/
theorem sideEffects_of_storageCell {a : Word} (h : storageCell a ≠ none) (b : Word) : sideEffects a b = false := by
  have hne {r : Word} (hr : storageCell r = none) : decide (a = r) = false := by
    rw [decide_eq_false_iff_not]
    rintro rfl
    exact h hr
  simp [sideEffects, hne (r := addrDIV) (by decide), hne (r := addrTAC) (by decide), hne (r := addrBoot) (by decide),
    hne (r := 0xFF40#16) (by decide), hne (r := 0xFF45#16) (by decide)]

/-- R83, R85: on the default platform an address of a RAM is one of plain storage, with the RAM's key for its cell. -/
theorem storageCell_of_ram {r : Region} (hr : .ram r ∈ Platform.default.components) {a : Word} (ho : r.owns a = true) :
    storageCell a = some (r.key a) ∧ 0xC000 ≤ r.key a := by
  simp only [Region.owns, Bool.and_eq_true, decide_eq_true_eq] at ho
  simp only [Platform.default, cartridgeRom, workRam, echoRam, List.mem_cons, Component.ram.injEq, reduceCtorEq,
    List.not_mem_nil, or_false, false_or] at hr
  rw [storageCell_eq_some_iff]
  unfold Region.key
  obtain rfl | rfl := hr
  · dsimp only at ho ⊢
    omega
  · dsimp only at ho ⊢
    omega

/-- R83 to R85: a key that answers an address of the default platform and is not the ROM's is its cell. -/
theorem storageCell_of_storageKey {c : Component} (hc : c ∈ Platform.default.components) {b : Word} {k : Nat}
    (h : c.storageKey b = some k) (hk : 0xC000 ≤ k) : storageCell b = some k := by
  cases c
  case ram r =>
    simp only [Component.storageKey, Option.ite_none_right_eq_some, Option.some.injEq] at h
    rw [← h.2]
    exact (storageCell_of_ram hc h.1).1
  case rom r =>
    simp only [Component.storageKey, Option.ite_none_right_eq_some, Option.some.injEq] at h
    simp only [Platform.default, cartridgeRom, workRam, echoRam, List.mem_cons, Component.rom.injEq, reduceCtorEq,
      List.not_mem_nil, or_false, false_or] at hc
    obtain ⟨ho, hkey⟩ := h
    subst hc
    simp only [Region.owns, Region.key, Bool.and_eq_true, decide_eq_true_eq] at ho hkey
    omega
  case bootRom base => simp [Platform.default, cartridgeRom, workRam, echoRam] at hc
  all_goals cases h

/-- R85, R99: on the default platform a store to plain storage touches the addresses of its cell only. -/
theorem touches_default_of_storageCell {a b : Word} {k : Nat} (ha : storageCell a = some k)
    (hb : storageCell b ≠ some k) : Platform.default.touches a b = false := by
  rw [Platform.touches_eq_false_iff]
  refine ⟨fun e => hb (e ▸ ha), ?_, sideEffects_of_storageCell (by simp [ha]) b⟩
  rw [Platform.shares, List.any_eq_false]
  intro c hc
  cases c
  case ram r =>
    intro h
    rw [Bool.and_eq_true, List.any_eq_true] at h
    obtain ⟨ho, c', hc', hkey⟩ := h
    obtain ⟨hcell, hlo⟩ := storageCell_of_ram hc ho
    cases ha.symm.trans hcell
    exact hb (storageCell_of_storageKey hc' (beq_iff_eq.mp hkey) hlo)
  all_goals exact Bool.false_ne_true

/-- R83, R85: what the bus reads after a store to plain storage. -/
theorem busRead_busWrite_of_storageCell {s : State} (hp : s.platform = Platform.default) (hs : s.memoriesCanonical)
    {a : Word} {k : Nat} (ha : storageCell a = some k) (b : Word) (d : Byte) :
    (s.busWrite a d).busRead b = if storageCell b = some k then d else s.busRead b := by
  split
  case isTrue hb =>
    have hp' : (s.busWrite a d).platform = Platform.default := (busWrite_platform s a d).trans hp
    rw [(bus_eq_cell hp' hb d).2, (bus_eq_cell hp ha d).1, State.cell_setCell hs]
  case isFalse hb =>
    refine busRead_busWrite_of_not_touches hs ?_ d
    rw [hp]
    exact touches_default_of_storageCell ha hb

/-! ## The rest of the map -/

/-- R90: no component of the default platform answers an unowned address. -/
theorem read_eq_none_of_unowned {a : Word} (h : unownedByDefault a = true) {c : Component}
    (hc : c ∈ Platform.default.components) (s : State) : c.read s a = none := by
  simp only [unownedByDefault, Bool.or_eq_true, Bool.and_eq_true, decide_eq_true_eq] at h
  have hv : inVram a = false := by rw [inVram_eq]; exact decide_eq_false (by omega)
  have ho : inOam a = false := by rw [inOam_eq]; exact decide_eq_false (by omega)
  simp only [Platform.default, cartridgeRom, workRam, echoRam, List.mem_cons, List.not_mem_nil, or_false] at hc
  obtain rfl | rfl | rfl | rfl | rfl | rfl := hc
  · exact Component.read_cpu_eq_none (by omega) s
  · exact Component.read_timer_eq_none (by omega) s
  · by_cases hlt : a.toNat < 0xFF40
    · exact Component.read_ppu_eq_none_of_lt hlt hv ho s
    · exact Component.read_ppu_eq_none (by omega) (by omega) s
  · exact (Component.read_region_eq_none (r := ⟨0x0000, 0x8000, 0x0000⟩) (by dsimp only; omega) s).2
  · exact (Component.read_region_eq_none (r := ⟨0xC000, 0x2000, 0xC000⟩) (by dsimp only; omega) s).1
  · exact (Component.read_region_eq_none (r := ⟨0xE000, 0x1E00, 0xC000⟩) (by dsimp only; omega) s).1

/-- R90: the default platform attaches no boot shadow. -/
theorem hasBootRom_default {s : State} (hp : s.platform = Platform.default) : s.platform.hasBootRom = false := by
  rw [hp]
  rfl

/-- R84: a write below 0x8000 meets the ROM, which drops it, and nobody else. -/
theorem busWrite_rom {s : State} (hp : s.platform = Platform.default) {a : Word} (h : a.toNat < 0x8000) (d : Byte) :
    s.busWrite a d = s := by
  have hboot : a ≠ addrBoot := by
    rintro rfl
    exact absurd h (by decide)
  have hv : inVram a = false := by rw [inVram_eq]; exact decide_eq_false (by omega)
  have ho : inOam a = false := by rw [inOam_eq]; exact decide_eq_false (by omega)
  -- A component that answers no read passes the write on; the ROM answers and ignores it.
  have hsilent {c : Component} (hr : ∀ t : State, c.read t a = none) (t : State) : c.write a d t = t :=
    Component.write_eq_self_of_read_eq_none (hr t) (.inr hboot) d
  have hcpu := hsilent (Component.read_cpu_eq_none (.inl (by omega)))
  have htimer := hsilent (Component.read_timer_eq_none (.inl (by omega)))
  have hppu := hsilent (Component.read_ppu_eq_none_of_lt (by omega) hv ho)
  have hwork : workRam.write a d s = s :=
    hsilent (fun t => (Component.read_region_eq_none (.inl (by simp; omega)) t).1) s
  have hecho : echoRam.write a d s = s :=
    hsilent (fun t => (Component.read_region_eq_none (.inl (by simp; omega)) t).1) s
  have hrom : cartridgeRom.write a d s = s := rfl
  rw [State.busWrite, hp]
  simp only [Platform.default, List.foldl_cons, List.foldl_nil, hcpu, htimer, hppu, hrom, hwork, hecho]

/-- R28, R29, R80: the CPU alone owns IE and IF. -/
theorem bus_eq_cpu {s : State} (hp : s.platform = Platform.default) {a : Word} (h : a = addrIE ∨ a = addrIF) (d : Byte) :
    s.busWrite a d = Component.write .cpu a d s ∧ some (s.busRead a) = Component.read .cpu s a := by
  refine bus_eq_of_unique_owner (before := []) (after := [.timer, .ppu, cartridgeRom, workRam, echoRam])
    (by rw [hp]; rfl) (by simp) ?_ ?_ ?_ d
  · have hlo : 0xFF07 < a.toNat ∧ (a.toNat < 0xFF40 ∨ 0xFF4B < a.toNat) := by
      obtain rfl | rfl := h <;> decide
    refine List.forall_mem_cons.mpr ⟨Component.read_timer_eq_none (by omega),
      List.forall_mem_cons.mpr ⟨Component.read_ppu_eq_none (by omega) hlo.2,
        fun x hx => Component.read_default_storage_eq_none hx (by omega)⟩⟩
  · obtain rfl | rfl := h <;> rfl
  · obtain rfl | rfl := h <;> decide

/-- Settles O47: cells, their owners, and what nobody owns. -/
theorem defaultMemoryMap : Obligations.DefaultMemoryMap := by
  unfold Obligations.DefaultMemoryMap
  refine ⟨fun s a b d k hp hs ha => busRead_busWrite_of_storageCell hp hs ha b d, fun s a d hp => ?_⟩
  have hie := bus_eq_cpu hp (a := addrIE) (.inl rfl) d
  have hif := bus_eq_cpu hp (a := addrIF) (.inr rfl) d
  have hback {a : Word} (ha : a = addrIE ∨ a = addrIF) := bus_eq_cpu ((busWrite_platform s a d).trans hp) ha d
  refine ⟨fun h => ?_, fun h => busWrite_rom hp h d, hie.1, ?_, hif.1, ?_, Option.some.inj hie.2, Option.some.inj hif.2⟩
  · have hnone : ∀ x ∈ s.platform.components, x.read s a = none := by
      rw [hp]
      exact fun x hx => read_eq_none_of_unowned h hx s
    exact ⟨busRead_of_no_owner hnone, busWrite_eq_self hnone (.inl (hasBootRom_default hp)) d⟩
  · refine Option.some.inj ((hback (.inl rfl)).2.trans ?_)
    rw [hie.1]
    rfl
  · refine Option.some.inj ((hback (.inr rfl)).2.trans ?_)
    rw [hif.1]
    rfl

/-! ## The stack -/

/-- R85: neighbouring addresses of plain storage are not of one cell. -/
theorem storageCell_sub_ne {sp : Word} (h : storageCell (sp - 2#16) ≠ none) :
    storageCell (sp - 2#16) ≠ storageCell (sp - 1#16) := by
  obtain ⟨k, hk⟩ := Option.ne_none_iff_exists'.mp h
  intro e
  have hk' := e.symm.trans hk
  rw [storageCell_eq_some_iff] at hk hk'
  bv_omega

/-- R95, R234: on the default platform, with the stack in plain storage, what a state reads that stands on a push's memory
with a push's `sp` is the pushed word. -/
theorem poppedWord_of_push16 {s t : State} (hp : s.platform = Platform.default) (hs : s.memoriesCanonical)
    (hlo : storageCell (s.sp - 2#16) ≠ none) (hhi : storageCell (s.sp - 1#16) ≠ none) {v : Word}
    (hbus : (push16 v s).sameBus t) (hplat : t.platform = s.platform) (hsp : t.sp = s.sp - 2#16) :
    poppedWord t = v := by
  have hread (a : Word) : t.busRead a = (push16 v s).busRead a :=
    busRead_congr hbus (hplat.trans (push16_platform v s).symm) a
  obtain ⟨k, hk⟩ := Option.ne_none_iff_exists'.mp hlo
  obtain ⟨j, hj⟩ := Option.ne_none_iff_exists'.mp hhi
  have hne : storageCell (s.sp - 2#16) ≠ some j := fun e => storageCell_sub_ne hlo (e.trans hj.symm)
  let u : State := { s with sp := s.sp - 2#16 }
  have hu : (u.busWrite (s.sp - 2#16) (lowByte v)).memoriesCanonical := busWrite_memoriesCanonical (s := u) hs _ _
  have hpu : (u.busWrite (s.sp - 2#16) (lowByte v)).platform = Platform.default := (busWrite_platform _ _ _).trans hp
  rw [poppedWord, State.busRead16, hsp, sub_two_add_one, hread, hread, push16_eq,
    busRead_busWrite_of_storageCell hpu hu hj, if_pos hj, busRead_busWrite_of_storageCell hpu hu hj, if_neg hne,
    busRead_busWrite_of_storageCell (s := u) hp hs hk, if_pos hk]
  exact make16_bytes v

/-- R24: F's low nibble is 0 in a word of AF. -/
theorem make16_and_low (hi lo : Byte) : make16 hi (lo &&& 0xF0#8) = make16 hi lo &&& 0xFFF0#16 := by
  have hmask : (0xFFF0#16 : Word) = make16 0xFF#8 0xF0#8 := rfl
  rw [hmask, make16, make16, make16]
  refine BitVec.eq_of_getLsbD_eq fun i hi => ?_
  simp only [BitVec.getLsbD_and, BitVec.getLsbD_append]
  split
  · rfl
  · have hone : (0xFF#8 : Byte).getLsbD (i - 8) = true := by
      interval_cases i <;> rfl
    rw [hone, Bool.and_true]

/-- R126, R233: a pair holds what is popped into it, F without its low nibble. -/
theorem State.pair_setPair (s : State) (q : R16S) (v : Word) :
    (s.setPair q v).pair q = if q = .AF then v &&& 0xFFF0#16 else v := by
  cases q
  case AF =>
    refine (make16_and_low (highByte v) (lowByte v)).trans ?_
    rw [make16_bytes, if_pos rfl]
  all_goals exact make16_bytes v

/-- Settles O15: what `POP` and `RET` pop is what `PUSH` and `CALL` pushed. -/
theorem stackRoundTrip : Obligations.StackRoundTrip := by
  unfold Obligations.StackRoundTrip
  intro s p q nn hp hs hlo hhi
  have hsp : s.sp - 2#16 + 2#16 = s.sp := by bv_omega
  refine ⟨⟨_, _, exec_of_form (Instr.form_push p) s, exec_of_form (Instr.form_pop q) _, ?_, ?_⟩,
    ⟨_, _, rfl, rfl, rfl, ?_, ?_, ?_⟩⟩
  · simp [opPop, opPush, dropWord, hsp]
  · have hpop : poppedWord (opPush p s) = s.pair p :=
      poppedWord_of_push16 hp hs hlo hhi ⟨rfl, rfl, rfl, rfl, rfl, rfl, rfl⟩ (push16_platform _ _) (push16_sp _ _)
    rw [opPop, hpop]
    exact State.pair_setPair _ q _
  · exact poppedWord_of_push16 hp hs hlo hhi ⟨rfl, rfl, rfl, rfl, rfl, rfl, rfl⟩ (push16_platform _ _) (push16_sp _ _)
  · exact (congrArg (· + 2#16) (push16_sp _ _)).trans hsp
  · exact push16_regs _ _

end Sys2Proof.Machine
end

