-- ==== Sys2Proof/Proofs/LcdPositions.lean ====
section
/-! SUPPORT. R450 to R459, R493, R495: what the picture unit's step does at each position of a frame, and what switching
the display off and on does. -/

namespace Sys2Proof.Machine

/-! ## The actions -/

/-- R457, R458: two requests of LCD_STAT are one. -/
theorem or_lcdStat_or (i : Byte) (p q : Prop) [Decidable p] [Decidable q] :
    i ||| (if p then 0x02#8 else 0#8) ||| (if q then 0x02#8 else 0#8) = i ||| (if p ∨ q then 0x02#8 else 0#8) := by
  by_cases hp : p <;> by_cases hq : q <;> simp [hp, hq, BitVec.or_assoc]

/-- R457: a mode keeps STAT's enable bits. -/
theorem getLsbD_statWithMode {m : Byte} {i : Nat} (hi : 2 ≤ i ∧ i < 8) (hm : m.getLsbD i = false) (stat : Byte) :
    (statWithMode stat m).getLsbD i = stat.getLsbD i := by
  have hmask : (0xFC#8).getLsbD i = true := by
    obtain ⟨h1, h2⟩ := hi
    interval_cases i <;> rfl
  rw [statWithMode, BitVec.getLsbD_or, BitVec.getLsbD_and, hmask, hm, Bool.and_true, Bool.or_false]

/-- R450, R454 to R459: what the start of a visible line leaves in the picture unit. -/
theorem lineStart_visible_ppu {line : Nat} (h : line < 144) (s : State) : (lineStart line s).ppu = { s.ppu with
    ly := BitVec.ofNat 8 line
    stat := (s.ppu.stat &&& 0xF8#8) ||| 2#8 ||| (if s.ppu.lyc = BitVec.ofNat 8 line then 0x04#8 else 0#8)
    nextFrame := if line = 0 then List.replicate 144 none else s.ppu.nextFrame
    winY := if line = 0 then 0 else s.ppu.winY } := by
  have h1 : line < lcdHeight := h
  have h2 : line ≠ lcdHeight := Nat.ne_of_lt h
  unfold lineStart
  simp only [if_pos h1, if_neg h2]
  rw [setLY_ppu, setMode_ppu, setBit2_statWithMode rfl]
  split
  · simp only [frameStart_ppu, decide_eq_true_eq, @eq_comm _ (BitVec.ofNat 8 line)]
    rfl
  · simp only [decide_eq_true_eq, @eq_comm _ (BitVec.ofNat 8 line)]

/-- R457, R458: what it requests. -/
theorem lineStart_visible_iflag {line : Nat} (h : line < 144) (s : State) : (lineStart line s).iflag = s.iflag |||
    (if s.ppu.stat.getLsbD 5 = true ∨ (s.ppu.lyc = BitVec.ofNat 8 line ∧ s.ppu.stat.getLsbD 6 = true) then 0x02#8
      else 0#8) := by
  have h1 : line < lcdHeight := h
  have h2 : line ≠ lcdHeight := Nat.ne_of_lt h
  have hframe : ∀ t : State, t = (if line = 0 then frameStart s else s) →
      t.iflag = s.iflag ∧ t.ppu.stat = s.ppu.stat ∧ t.ppu.lyc = s.ppu.lyc := by
    rintro t rfl
    split <;> exact ⟨rfl, rfl, rfl⟩
  unfold lineStart
  simp only [if_pos h1, if_neg h2]
  obtain ⟨hi, hstat, hlyc⟩ := hframe _ rfl
  rw [setLY_iflag, setMode_iflag, setMode_ppu, hi, hstat, hlyc]
  rw [getLsbD_statWithMode (by decide) (by decide), or_lcdStat_or]
  simp only [ne_eq, Nat.reduceEqDiff, not_false_eq_true, true_and, Nat.reduceAdd, @eq_comm _ (BitVec.ofNat 8 line)]

/-- R455, R458: the start of a line of the vertical blank but its first. -/
theorem lineStart_blank {line : Nat} (h : 144 < line) (s : State) :
    lineStart line s = setLY (BitVec.ofNat 8 line) s := by
  have h0 : line ≠ 0 := by omega
  have h1 : ¬line < lcdHeight := Nat.not_lt_of_ge (Nat.le_of_lt h)
  have h2 : line ≠ lcdHeight := Nat.ne_of_gt h
  simp only [lineStart, if_neg h0, if_neg h1, if_neg h2]

/-- R459: only a frame's start touches the slots and the window's row. -/
theorem lineStart_keeps_frame {line : Nat} (h : line ≠ 0) (s : State) :
    (lineStart line s).ppu.nextFrame = s.ppu.nextFrame ∧ (lineStart line s).ppu.winY = s.ppu.winY := by
  obtain hlt | rfl | hgt := Nat.lt_trichotomy line 144
  · rw [lineStart_visible_ppu hlt]
    exact ⟨if_neg h, if_neg h⟩
  · rw [lineStart_144_ppu]
    exact ⟨rfl, rfl⟩
  · rw [lineStart_blank hgt, setLY_ppu]
    exact ⟨rfl, rfl⟩

/-- R499: only line 144's start touches the image. -/
theorem lineStart_keeps_image {line : Nat} (h : line ≠ 144) (s : State) :
    (lineStart line s).ppu.currentImage = s.ppu.currentImage := by
  obtain hlt | hgt := Nat.lt_or_gt_of_ne h
  · rw [lineStart_visible_ppu hlt]
  · rw [lineStart_blank hgt, setLY_ppu]

/-- R474, R495: the window's row rises where the window is drawn. -/
theorem Ppu.nextWinY_eq (p : Ppu) (line : Nat) : p.nextWinY line =
    if p.lcdc.getLsbD 5 = true ∧ p.wy.toNat ≤ line ∧ p.wx.toNat - 7 < 160 then p.winY + 1 else p.winY := by
  simp only [Ppu.nextWinY, Ppu.windowDrawn, Bool.and_eq_true, decide_eq_true_eq, and_assoc]
  rfl

/-- R450, R493, R495: offset 20 of a visible line. -/
theorem pixelTransfer_ppu (line : Nat) (s : State) : (pixelTransfer line s).ppu = { s.ppu with
    stat := (s.ppu.stat &&& 0xFC#8) ||| 3#8
    nextFrame := s.ppu.nextFrame.set line (some (s.ppu.computeLine s.platform.obj16MaskBit0 line))
    winY := s.ppu.nextWinY line } := by
  obtain ⟨hnext, hwin⟩ := pixelTransfer_stores line s
  have h : (pixelTransfer line s).ppu = { s.ppu with
      stat := statWithMode s.ppu.stat 3#8
      nextFrame := (pixelTransfer line s).ppu.nextFrame
      winY := (pixelTransfer line s).ppu.winY } := by
    unfold pixelTransfer
    simp only [setMode_ppu]
  rw [h, hnext, hwin]
  rfl

theorem pixelTransfer_iflag (line : Nat) (s : State) : (pixelTransfer line s).iflag = s.iflag := by
  refine (setMode_iflag 3 s).trans ?_
  simp

/-! ## The step at a position -/

/-- R450, R454: the step while the display runs, by line and offset. -/
theorem ppuStep_at {s : State} {line offset : Nat} (ha : s.ppu.lcdActive = true) (ho : offset < 114)
    (hpos : (s.cycles - s.ppu.lcdOnCycle) % 17556 = 114 * line + offset) : ppuStep s =
    if offset = 0 then lineStart line (dmaStep s)
    else if offset = 20 ∧ line < 144 then pixelTransfer line (dmaStep s)
    else if offset = 63 ∧ line < 144 then setMode 0 (dmaStep s)
    else dmaStep s := by
  have hp : framePosition s = 114 * line + offset := hpos
  have hmod : (114 * line + offset) % 114 = offset := by omega
  have hdiv : (114 * line + offset) / 114 = line := by omega
  rw [ppuStep_of_lcdActive ha, hp, lcdAction, hmod, hdiv]
  rfl

/-- R461: the copy's step in what the display's actions read. -/
theorem dmaStep_display (s : State) : (dmaStep s).ppu.ly = s.ppu.ly ∧ (dmaStep s).ppu.stat = s.ppu.stat ∧
    (dmaStep s).ppu.lyc = s.ppu.lyc ∧ (dmaStep s).ppu.nextFrame = s.ppu.nextFrame ∧
    (dmaStep s).ppu.winY = s.ppu.winY ∧ (dmaStep s).ppu.currentImage = s.ppu.currentImage ∧
    (∀ line, (dmaStep s).ppu.nextWinY line = s.ppu.nextWinY line) := by
  obtain ⟨oam, idx, act, e⟩ := dmaStep_ppu s
  rw [e]
  exact ⟨rfl, rfl, rfl, rfl, rfl, rfl, fun _ => rfl⟩

/-- R452: the step that starts the display. -/
theorem ppuStep_of_start {s : State} (ha : s.ppu.lcdActive = false) (hc : s.ppu.lcdc.getLsbD 7 = true) :
    ppuStep s = lineStart 0 { dmaStep s with
      ppu := { (dmaStep s).ppu with lcdActive := true, lcdOnCycle := s.cycles } } := by
  obtain ⟨oam, idx, act, e⟩ := dmaStep_ppu s
  obtain ⟨-, -, -, -, -, -, -, hcycles, -⟩ := dmaStep_sameCpu s
  have hact : (dmaStep s).ppu.lcdActive = false := by rw [e]; exact ha
  have hlcdc : (dmaStep s).ppu.lcdc.getLsbD 7 = true := by rw [e]; exact hc
  have hstart : lcdStart (dmaStep s) = { dmaStep s with
      ppu := { (dmaStep s).ppu with lcdActive := true, lcdOnCycle := s.cycles } } := by
    rw [← hcycles]
    exact if_pos (by rw [hact, hlcdc]; rfl)
  have hpos : framePosition (lcdStart (dmaStep s)) = 0 := by
    rw [hstart, framePosition, hcycles, Nat.sub_self, Nat.zero_mod]
  rw [ppuStep, lcdStep, hpos, hstart]
  rfl

/-- R453: the write that switches a running display off. -/
theorem writePpuReg_LCDC_off {s : State} {d : Byte} (ha : s.ppu.lcdActive = true) (hd : d.getLsbD 7 = false) :
    writePpuReg .LCDC d s = lcdOff { s with ppu := { s.ppu with lcdc := d } } :=
  if_pos (by rw [hd, ha]; rfl)

/-- Settles O49: the register write that stops the display, the step that starts it, and the step's action at each
position of a frame. -/
theorem lcdOffAndOn : Obligations.LcdOffAndOn := by
  unfold Obligations.LcdOffAndOn
  refine ⟨fun s d hp ha hd => ?_, fun s ha hc => ?_, fun s line offset ha hl ho hpos => ?_⟩
  · rw [(bus_eq_ppu hp (by decide) (by decide) d).1, Component.write_ppu_of_ofAddr (r := .LCDC) rfl,
      writePpuReg_LCDC_off ha hd, lcdOff, coincidence_eq]
    have h6 : (statWithMode s.ppu.stat 0#8).getLsbD 6 = s.ppu.stat.getLsbD 6 :=
      getLsbD_statWithMode (by decide) (by decide) _
    have hstat : statWithMode s.ppu.stat 0#8 &&& 0xFB#8 = s.ppu.stat &&& 0xF8#8 := by
      rw [statWithMode, BitVec.or_zero, BitVec.and_assoc]
      rfl
    simp only [h6, hstat, @eq_comm _ 0#8]
  · obtain ⟨-, hst, hlyc, -, -, hcur, -⟩ := dmaStep_display s
    have hstat : (ppuStep s).ppu.stat =
        (s.ppu.stat &&& 0xF8#8) ||| 2#8 ||| (if s.ppu.lyc = 0#8 then 0x04#8 else 0#8) := by
      rw [ppuStep_of_start ha hc, lineStart_visible_ppu (by decide)]
      simp only [hst, hlyc]
    refine ⟨?_, ?_, ?_, ?_, ?_, ?_, ?_, hstat, ?_⟩
    · rw [ppuStep_of_start ha hc, lineStart_visible_ppu (by decide)]
    · rw [ppuStep_of_start ha hc, lineStart_visible_ppu (by decide)]
    · rw [ppuStep_of_start ha hc, lineStart_visible_ppu (by decide)]
    · rw [ppuStep_of_start ha hc]
      exact (lineStart_fields 0 _).2.1
    · rw [ppuStep_of_start ha hc, lineStart_visible_ppu (by decide)]
      rfl
    · rw [ppuStep_of_start ha hc, lineStart_visible_ppu (by decide)]
      rfl
    · rw [ppuStep_of_start ha hc, lineStart_visible_ppu (by decide)]
      exact hcur
    · rw [ppuStep_of_start ha hc, lineStart_visible_iflag (by decide)]
      simp only [hst, hlyc, dmaStep_iflag]
  · have hstep := ppuStep_at ha ho hpos
    obtain ⟨hly, hst, hlyc, hnext, hwin, hcur, hnw⟩ := dmaStep_display s
    obtain ⟨-, -, -, -, -, -, -, -, hplat⟩ := dmaStep_sameCpu s
    refine ⟨fun h0 h => ?_, fun h20 h => ?_, fun h63 h => ?_, fun h0 h => ?_, fun h0 h => ?_, fun h20 h => ?_,
      fun h0 h => ?_, fun h0 h20 => ?_, fun h => ?_⟩
    · rw [hstep, if_pos h0, lineStart_visible_ppu h, lineStart_visible_iflag h, dmaStep_iflag]
      simp only [hst, hlyc, and_self]
    · rw [hstep, if_neg (by omega), if_pos ⟨h20, h⟩, pixelTransfer_ppu, pixelTransfer_iflag, dmaStep_iflag]
      simp only [hst, hly, and_self]
    · rw [hstep, if_neg (by omega), if_neg (by omega), if_pos ⟨h63, h⟩, setMode_ppu, setMode_iflag, dmaStep_iflag]
      simp [hst, hly, statWithMode]
    · rw [hstep, if_pos h0, lineStart_blank h, setLY_ppu, setLY_iflag, dmaStep_iflag]
      simp only [hst, hlyc, setBit_two_eq, @eq_comm _ (BitVec.ofNat 8 line), decide_eq_true_eq, and_self]
    · rw [hstep, if_neg h0, if_neg (by omega), if_neg (by omega)]
    · rw [hstep, if_neg (by omega), if_pos ⟨h20, h⟩, pixelTransfer_ppu]
      simp only [hnext, hnw, Ppu.nextWinY_eq, hplat, and_self]
    · rw [hstep, if_pos h0, lineStart_visible_ppu (by omega)]
      simp only [h, if_true, and_self]
    · rw [hstep]
      split
      case isTrue h => exact (hnext ▸ hwin ▸ lineStart_keeps_frame (h0.resolve_left (not_not_intro h)) (dmaStep s))
      case isFalse h =>
        rw [if_neg (by omega)]
        split
        · rw [setMode_ppu]
          exact ⟨hnext, hwin⟩
        · exact ⟨hnext, hwin⟩
    · rw [hstep]
      split_ifs with h1 h2 h3
      · exact (lineStart_keeps_image (h.resolve_left (not_not_intro h1)) _).trans hcur
      · rw [pixelTransfer_ppu]
        exact hcur
      · rw [setMode_ppu]
        exact hcur
      · exact hcur

end Sys2Proof.Machine
end

