-- ==== Sys2Proof/Proofs/DmaCopy.lean ====
section
/-! SUPPORT. R461, R462: the copy byte by byte. OAM is itself on the bus, but a byte of it is read before it is written. -/

namespace Sys2Proof.Machine

/-- OAM after `k` bytes of a copy that starts in `s`. -/
def State.dmaOam (s : State) : Nat → Memory
  | 0 => s.ppu.oam
  | k + 1 => (s.dmaOam k).write k (s.busRead (make16 s.ppu.dma (BitVec.ofNat 8 k)))

/-- The machine after `k` bytes of a copy that starts in `s`. -/
def State.dmaAt (s : State) (k : Nat) : State :=
  { s with ppu := { s.ppu with oam := s.dmaOam k, dmaIndex := k, dmaActive := decide (k ≠ 160) } }

theorem State.dmaOam_wf {s : State} (h : s.ppu.oam.wf = true) (k : Nat) : (s.dmaOam k).wf = true := by
  induction k with
  | zero => exact h
  | succ k ih => exact Memory.wf_write ih _ _

/-- The first `k` bytes are the source's, the others OAM's own. -/
theorem State.dmaOam_read {s : State} (h : s.ppu.oam.wf = true) (k j : Nat) :
    (s.dmaOam k).read j = if j < k then s.busRead (make16 s.ppu.dma (BitVec.ofNat 8 j)) else s.ppu.oam.read j := by
  induction k with
  | zero => rfl
  | succ k ih =>
    rw [State.dmaOam, Memory.read_write (s.dmaOam_wf h k), ih]
    by_cases hj : j = k
    · subst hj
      rw [if_pos rfl, if_pos (Nat.lt_succ_self j)]
    · have hlt : j < k + 1 ↔ j < k := by omega
      simp only [if_neg hj, hlt]

/-- R49: a source address in OAM is the address of the copy's own byte. -/
theorem oamOffset_make16 {page : Byte} {k : Nat} (hk : k < 256) (h : inOam (make16 page (BitVec.ofNat 8 k)) = true) :
    oamOffset (make16 page (BitVec.ofNat 8 k)) = k := by
  simp only [inOam, Bool.and_eq_true, decide_eq_true_eq] at h
  have hto : (make16 page (BitVec.ofNat 8 k)).toNat = page.toNat * 256 + k := by
    rw [make16, BitVec.toNat_append, BitVec.toNat_ofNat, Nat.mod_eq_of_lt hk, ← Nat.shiftLeft_add_eq_or_of_lt hk,
      Nat.shiftLeft_eq]
  unfold oamOffset
  omega

/-- R461: the next byte of the copy is read as before the copy. -/
theorem State.busRead_dmaAt {s : State} (h : s.ppu.oam.wf = true) {k : Nat} (hk : k < 160) :
    (s.dmaAt k).busRead (make16 s.ppu.dma (BitVec.ofNat 8 k)) = s.busRead (make16 s.ppu.dma (BitVec.ofNat 8 k)) := by
  refine ReadsAlike.busRead { ReadsAlike.refl (s := s) with oam := fun ho => ?_, reg := fun r _ => by cases r <;> rfl }
  rw [oamOffset_make16 (by omega) ho]
  exact (State.dmaOam_read h k k).trans (if_neg (Nat.lt_irrefl k))

/-- R461: one step copies one byte. -/
theorem dmaStep_dmaAt {s : State} (h : s.ppu.oam.wf = true) {k : Nat} (hk : k < 160) :
    dmaStep (s.dmaAt k) = s.dmaAt (k + 1) := by
  have hact : (s.dmaAt k).ppu.dmaActive = true := decide_eq_true (by omega)
  refine (if_pos hact).trans ?_
  change { s.dmaAt k with ppu := { (s.dmaAt k).ppu with
    oam := (s.dmaOam k).write k ((s.dmaAt k).busRead (make16 s.ppu.dma (BitVec.ofNat 8 k)))
    dmaIndex := k + 1
    dmaActive := decide (k + 1 ≠ 160) } } = _
  rw [State.busRead_dmaAt h hk]
  rfl

theorem dmaStep_iterate {s : State} (h : s.ppu.oam.wf = true) (ha : s.ppu.dmaActive = true) (hi : s.ppu.dmaIndex = 0)
    {k : Nat} (hk : k ≤ 160) : dmaStep^[k] s = s.dmaAt k := by
  induction k with
  | zero =>
    have hppu : ({ s.ppu with dmaIndex := 0, dmaActive := true } : Ppu) = s.ppu := by rw [← hi, ← ha]
    exact congrArg (fun p => { s with ppu := p }) hppu.symm
  | succ k ih => rw [Function.iterate_succ_apply', ih (by omega), dmaStep_dmaAt h hk]

/-- Settles O52: 160 steps are 160 bytes. -/
theorem dmaCopiesThePage : Obligations.DmaCopiesThePage := by
  unfold Obligations.DmaCopiesThePage
  intro s hs ha hi
  obtain ⟨-, -, -, hoam⟩ := hs
  refine ⟨s.dmaOam 160, dmaStep_iterate hoam ha hi (Nat.le_refl _), fun k hk => ?_⟩
  rw [State.dmaOam_read hoam, if_pos hk]

end Sys2Proof.Machine
end

