-- ==== Sys2Proof/Proofs/RenderedPixels.lean ====
section
/-! SUPPORT. R493 to R498, R501: the whole-line operations of the renderer pixel by pixel. A pixel of a line is its colour
and its opacity; what a line lays over another is the colour of its opaque pixels. -/

namespace Sys2Proof.Machine

/-! ## Pixels of a line -/

/-- The colour and the opacity of a pixel. -/
def LcdImageLine.pixelAt {n : Nat} (L : LcdImageLine n) (i : Nat) : BitVec 2 × Bool := (L.colour i, L.opaqueAt i)

/-- The colour of an opaque pixel. -/
def LcdImageLine.top {n : Nat} (L : LcdImageLine n) (i : Nat) : Option (BitVec 2) :=
  if L.opaqueAt i then some (L.colour i) else none

/-- A colour looked up in a palette, opaque where the colour's index is not 0 (R486, R488). -/
def indexPixel (pal : Byte) (i : BitVec 2) : BitVec 2 × Bool := (palette pal i, i != 0#2)

namespace LcdImageLine

variable {n i : Nat}

theorem pixelAt_empty : (empty n).pixelAt i = (0#2, false) := by
  simp [pixelAt, empty, colour, opaqueAt]

theorem pixelAt_join (h : i < n) (A B : LcdImageLine n) (k : Nat) :
    (A.join B k).pixelAt i = if i < k then A.pixelAt i else B.pixelAt i := by
  rw [pixelAt, colour_join h, opaqueAt_join h]
  split <;> rfl

/-- R482, R484, R487: a shifted line shows a pixel of the old one, or nothing. -/
theorem pixelAt_shift (h : i < n) (L : LcdImageLine n) (k : Int) :
    (L.shift k).pixelAt i = if k ≤ i then L.pixelAt ((i : Int) - k).toNat else (0#2, false) := by
  simp only [pixelAt, colour, opaqueAt, shift, getLsbD_shiftVector _ k h]
  split
  case isTrue hk => simp only [hk, decide_true, Bool.true_and]
  case isFalse hk => simp only [hk, decide_false, Bool.false_and]; rfl

theorem pixelAt_extractWrapped {size : Nat} (hn : 0 < n) (h : i < size) (L : LcdImageLine n) (start : Int) :
    (L.extractWrapped start size).pixelAt i = L.pixelAt ((start + i) % (n : Int)).toNat := by
  simp only [pixelAt, colour, opaqueAt, extractWrapped, getLsbD_extractWrapped _ start hn h]

theorem pixelAt_extractZeroExtended_zero {size : Nat} (h : i < size) (L : LcdImageLine n) :
    (L.extractZeroExtended 0 size).pixelAt i = L.pixelAt i := by
  have e : ((0 : Int) + i).toNat = i := by omega
  have h0 : (0 : Int) ≤ 0 + i := by omega
  simp only [pixelAt, colour, opaqueAt, extractZeroExtended, getLsbD_extractZeroExtended _ 0 h, e, h0, decide_true,
    Bool.true_and]

/-- R488: recolouring a line of palette indices. -/
theorem pixelAt_mapColors (h : i < n) {L : LcdImageLine n} {c : BitVec 2} (hc : L.pixelAt i = (c, c != 0#2))
    (pal : Byte) : (L.mapColors pal).pixelAt i = indexPixel pal c := by
  obtain ⟨hcol, hop⟩ := Prod.mk.inj hc
  rw [pixelAt, colour_mapColors h, hcol]
  exact congrArg (palette pal c, ·) hop

/-- R486: a line of planes is opaque where its colour is not 0. -/
theorem pixelAt_ofPlanes (msb lsb : BitVec n) (i : Nat) : (ofPlanes msb lsb).pixelAt i =
    ((ofPlanes msb lsb).colour i, (ofPlanes msb lsb).colour i != 0#2) := by
  refine congrArg (_, ·) ?_
  simp only [opaqueAt, colour, ofPlanes, BitVec.getLsbD_or]
  cases msb.getLsbD i <;> cases lsb.getLsbD i <;> rfl

theorem top_of_pixelAt {L : LcdImageLine n} {c : BitVec 2} {b : Bool} (h : L.pixelAt i = (c, b)) :
    L.top i = if b then some c else none := by
  obtain ⟨hc, hb⟩ := Prod.mk.inj h
  rw [top, hc, hb]

/-- R489: the upper line's opaque pixels cover the lower line's. -/
theorem top_below (h : i < n) (A B : LcdImageLine n) : (A.below B).top i = (B.top i).or (A.top i) := by
  have hop : (A.below B).opaqueAt i = (B.opaqueAt i || A.opaqueAt i) := BitVec.getLsbD_or
  rw [top, hop, below, colour_belowMask h]
  change (if (B.opaqueAt i || A.opaqueAt i) = true then some (if B.opaqueAt i = true then _ else _) else none) = _
  cases hB : B.opaqueAt i <;> simp [top, hB]

end LcdImageLine

/-! ## Background and window -/

/-- R491: a line of tile rows shows the rows' pixels. -/
theorem pixelAt_lineFromTiles (f : Nat → Byte × Byte) {X : Nat} (hX : X < 256) : (lineFromTiles f).pixelAt X =
    (tilePixelOf (f (X / 8)) (X % 8), tilePixelOf (f (X / 8)) (X % 8) != 0#2) := by
  have hcol : (lineFromTiles f).colour X = tilePixelOf (f (X / 8)) (X % 8) := by
    have hj : X / 8 < 32 := by omega
    have hk : X % 8 < 8 := Nat.mod_lt _ (by decide)
    have e : X = 8 * (X / 8) + X % 8 := (Nat.div_add_mod X 8).symm
    rw [tilePixelOf, ← lineFromTiles_msb f hj hk, ← lineFromTiles_lsb f hj hk, ← e]
    rfl
  rw [← hcol]
  exact LcdImageLine.pixelAt_ofPlanes _ _ X

theorem Ppu.pixelAt_mapLine (p : Ppu) (area : Bool) (y : Nat) {X : Nat} (hX : X < 256) :
    (p.mapLine area y).pixelAt X = (p.tilePixel area y X, p.tilePixel area y X != 0#2) :=
  pixelAt_lineFromTiles _ hX

/-- R494, R501: the background. -/
theorem Ppu.pixelAt_backgroundLine (p : Ppu) (ly : Nat) {x : Nat} (hx : x < 160) : (p.backgroundLine ly).pixelAt x =
    if p.lcdc.getLsbD 0 then
      indexPixel p.bgp (p.tilePixel (p.lcdc.getLsbD 3) ((ly + p.scy.toNat) % 256) ((x + p.scx.toNat) % 256))
    else (0#2, false) := by
  unfold Ppu.backgroundLine
  split
  · refine LcdImageLine.pixelAt_mapColors hx ?_ p.bgp
    have e : (((p.scx.toNat : Int) + x) % (256 : Nat)).toNat = (x + p.scx.toNat) % 256 := by omega
    rw [LcdImageLine.pixelAt_extractWrapped (by decide) hx, e, Ppu.pixelAt_mapLine _ _ _ (Nat.mod_lt _ (by decide))]
    rfl
  · exact LcdImageLine.pixelAt_empty

/-- R495, R501: the window. -/
theorem Ppu.pixelAt_windowLine (p : Ppu) {x : Nat} (hx : x < 160) (hw : p.windowX ≤ x) : p.windowLine.pixelAt x =
    indexPixel p.bgp (p.tilePixel (p.lcdc.getLsbD 6) p.winY (x - p.windowX)) := by
  refine LcdImageLine.pixelAt_mapColors hx ?_ p.bgp
  have e : ((x : Int) - p.windowX).toNat = x - p.windowX := by omega
  rw [LcdImageLine.pixelAt_shift hx, if_pos (by omega), e, LcdImageLine.pixelAt_extractZeroExtended_zero (by omega),
    Ppu.pixelAt_mapLine _ _ _ (by omega)]

/-- R493, R501: background and window. -/
theorem Ppu.pixelAt_sceneLine (p : Ppu) (ly : Nat) {x : Nat} (hx : x < 160) :
    (p.sceneLine ly).pixelAt x = p.scenePixel ly x := by
  have hbg := p.pixelAt_backgroundLine ly hx
  unfold Ppu.sceneLine Ppu.scenePixel
  by_cases hd : p.windowDrawn ly = true
  · rw [if_pos hd, LcdImageLine.pixelAt_join hx]
    by_cases hw : p.windowX ≤ x
    · rw [if_neg (by omega), if_pos ⟨hd, hw⟩]
      exact p.pixelAt_windowLine hx hw
    · rw [if_pos (by omega), if_neg (fun h => hw h.2)]
      exact hbg
  · rw [if_neg hd, if_neg (fun h => hd h.1)]
    exact hbg

/-! ## Sprites -/

/-- R497: a pattern's pixel `j` in the line's order. -/
theorem Ppu.colour_spritePattern (p : Ppu) (maskBit0 : Bool) (k ly : Nat) {j : Nat} (hj : j ≤ 7) :
    BitVec.ofBool ((p.spritePattern maskBit0 k ly).2.getLsbD j) ++
      BitVec.ofBool ((p.spritePattern maskBit0 k ly).1.getLsbD j) =
    tilePixelOf (p.tileRow (0x8000 + 16 * (p.spriteIndex maskBit0 k).toNat) (p.spriteRow k ly))
      (if (p.spriteFlags k).getLsbD 5 then 7 - j else j) := by
  unfold Ppu.spritePattern tilePixelOf
  dsimp only
  split
  · have e : 7 - (7 - j) = j := by omega
    rw [e]
  · rw [getLsbD_reverse8 _ (by omega), getLsbD_reverse8 _ (by omega)]

/-- R497: the planes of a sprite, its leftmost pixel in column 0. -/
def Ppu.spritePlanes (p : Ppu) (maskBit0 : Bool) (k ly : Nat) : LcdImageLine 160 :=
  .ofPlanes ((p.spritePattern maskBit0 k ly).2.setWidth 160) ((p.spritePattern maskBit0 k ly).1.setWidth 160)

theorem Ppu.colour_spritePlanes (p : Ppu) (maskBit0 : Bool) (k ly j : Nat) :
    (p.spritePlanes maskBit0 k ly).colour j = if 7 < j then 0#2 else
      tilePixelOf (p.tileRow (0x8000 + 16 * (p.spriteIndex maskBit0 k).toNat) (p.spriteRow k ly))
        (if (p.spriteFlags k).getLsbD 5 then 7 - j else j) := by
  simp only [Ppu.spritePlanes, LcdImageLine.colour, LcdImageLine.ofPlanes, BitVec.getLsbD_setWidth]
  split
  case isTrue h7 =>
    rw [BitVec.getLsbD_of_ge _ _ (by omega), BitVec.getLsbD_of_ge _ _ (by omega), Bool.and_false]
    rfl
  case isFalse h7 =>
    have hj : j < 160 := by omega
    simp only [hj, decide_true, Bool.true_and]
    exact p.colour_spritePattern maskBit0 k ly (by omega)

/-- R497, R501: a sprite's line lays its opaque pixels over what is below. -/
theorem Ppu.top_spriteLine (p : Ppu) (maskBit0 : Bool) (k ly : Nat) {x : Nat} (hx : x < 160) :
    (p.spriteLine maskBit0 k ly).top x = p.spritePixel maskBit0 ly x k := by
  have hshift := LcdImageLine.pixelAt_shift hx (p.spritePlanes maskBit0 k ly) (((p.spriteX k).toNat : Int) - 8)
  unfold Ppu.spritePixel
  by_cases hleft : x + 8 < (p.spriteX k).toNat
  · -- Left of the sprite nothing is shown, whatever the palette.
    rw [if_neg (by omega)] at hshift
    rw [if_pos hleft]
    exact (congrArg (fun b => if b = true then some _ else none) (congrArg Prod.snd hshift :) :)
  · have e : ((x : Int) - (((p.spriteX k).toNat : Int) - 8)).toNat = x + 8 - (p.spriteX k).toNat := by omega
    rw [if_pos (by omega), e, Ppu.spritePlanes, LcdImageLine.pixelAt_ofPlanes, ← Ppu.spritePlanes,
      p.colour_spritePlanes] at hshift
    have hpix := LcdImageLine.pixelAt_mapColors hx hshift (p.spritePalette k)
    rw [if_neg hleft]
    refine (LcdImageLine.top_of_pixelAt hpix).trans ?_
    dsimp only
    split
    · rfl
    · simp only [bne_iff_ne, ne_eq, ite_not]

/-- R498, R501: a group shows the first sprite of the order with an opaque pixel. -/
theorem Ppu.top_foldl_below (p : Ppu) (maskBit0 : Bool) (ly : Nat) {x : Nat} (hx : x < 160) (ks : List Nat) :
    (ks.reverse.foldl (fun L k => L.below (p.spriteLine maskBit0 k ly)) (LcdImageLine.empty 160)).top x =
      ks.findSome? (p.spritePixel maskBit0 ly x) := by
  induction ks with
  | nil => exact LcdImageLine.top_of_pixelAt LcdImageLine.pixelAt_empty
  | cons k ks ih =>
    rw [List.reverse_cons, List.foldl_append, List.foldl_cons, List.foldl_nil, LcdImageLine.top_below hx, ih,
      p.top_spriteLine maskBit0 k ly hx, List.findSome?_cons]
    cases p.spritePixel maskBit0 ly x k <;> rfl

theorem Ppu.top_spriteGroup (p : Ppu) (maskBit0 : Bool) (ly : Nat) {x : Nat} (hx : x < 160) (behind : Bool) :
    (p.spriteGroup maskBit0 ly behind (p.spritesOnLine ly)).top x = p.groupPixel maskBit0 ly x behind := by
  rw [Ppu.spriteGroup, List.filter_reverse]
  exact p.top_foldl_below maskBit0 ly hx _

/-! ## The composed line -/

/-- R493: the front group over the scene, the other group where the scene is transparent. -/
theorem LcdImageLine.colour_layers {n i : Nat} (h : i < n) (L Sb Sf : LcdImageLine n) :
    ((L.belowMask Sb (Sb.opacity &&& ~~~L.opacity)).below Sf).colour i =
      match Sf.top i with
      | some c => c
      | none => if L.opaqueAt i then L.colour i else (Sb.top i).getD (L.colour i) := by
  have hmask : (Sb.opacity &&& ~~~L.opacity).getLsbD i = (Sb.opaqueAt i && !L.opaqueAt i) := by
    rw [BitVec.getLsbD_and, BitVec.getLsbD_not, decide_eq_true h, Bool.true_and]
    rfl
  rw [below, colour_belowMask h, colour_belowMask h, hmask]
  change (if Sf.opaqueAt i = true then _ else _) = _
  cases hf : Sf.opaqueAt i <;> cases hl : L.opaqueAt i <;> cases hb : Sb.opaqueAt i <;> simp [top, hf, hb]

/-- Settles O55: the scene and the two groups pixel by pixel, and their layers. -/
theorem renderedLineIsThePixelRule : Obligations.RenderedLineIsThePixelRule := by
  unfold Obligations.RenderedLineIsThePixelRule
  intro p maskBit0 ly x hx
  have hscene := p.pixelAt_sceneLine ly hx
  unfold Ppu.computeLine Ppu.pixel
  rw [← hscene]
  split
  case isTrue h =>
    rw [LcdImageLine.colour_layers hx, p.top_spriteGroup maskBit0 ly hx, p.top_spriteGroup maskBit0 ly hx]
    rfl
  case isFalse h => exact (ite_self _).symm

end Sys2Proof.Machine
end
